-- ==== Sys2Proof/Word.lean ====
section
/-! DEFINITION. The word types of CORE (spec 00_scope.md rules R6, R7): every value is an unsigned bit vector of a
stated width (R10). -/

namespace Sys2Proof

/-- A byte of the text buffer: a character code (R14, R33). -/
abbrev Byte := BitVec 8

/-- A Block, a Key, or one word of the register index space: `BLOCK_BITS = KEY_BITS = REG_BITS = 64` (R6, R7). -/
abbrev Word64 := BitVec 64

/-- A HalfBlock: `HALF_BITS = 32` (R6). -/
abbrev HalfBlock := BitVec 32

/-- One half of the permuted key: `CD_BITS = 28` (R6). -/
abbrev KeyHalf := BitVec 28

/-- A RoundSubkey: `SUBKEY_BITS = 48` (R6). -/
abbrev Subkey := BitVec 48

/-- A register index: `INDEX_BITS = 12` (R7). -/
abbrev Index := BitVec 12

end Sys2Proof
end

