-- ==== Sys2Proof/Syntax.lean ====
section
/-! DEFINITION. The commands of CORE-CMD v1 (spec 30_encoding.md rules R91 to R94), one constructor per row of
spec/opcode_table.json. -/

namespace Sys2Proof

/-- The data registers the operand field `rsel` selects (30_encoding.md R93); `rsel = 11` selects none. -/
inductive DataReg where
  | key
  | din
  | dout
  deriving DecidableEq, Repr

/-- The nine commands (30_encoding.md R94). -/
inductive Instr where
  /-- `NOP` (44_system_commands.md R240). -/
  | nop
  /-- `KEYSCHED` (41_key_schedule.md R151). -/
  | keysched
  /-- `ENC` (43_block_cipher.md R226). -/
  | enc
  /-- `DEC` (43_block_cipher.md R227). -/
  | dec
  /-- `LDHEX rd` (40_conversion.md R124). -/
  | ldhex (rd : DataReg)
  /-- `LDBIN rd` (40_conversion.md R126). -/
  | ldbin (rd : DataReg)
  /-- `STHEX rs` (40_conversion.md R125). -/
  | sthex (rs : DataReg)
  /-- `STBIN rs` (40_conversion.md R127). -/
  | stbin (rs : DataReg)
  /-- `SRST` (44_system_commands.md R241). -/
  | srst
  deriving DecidableEq, Repr

end Sys2Proof
end

