-- ==== Sys2Proof/WellFormed.lean ====
section
/-! DEFINITION. Which commands exist (spec 30_encoding.md rule R93): a load has no `DOUT` form. -/

namespace Sys2Proof

/-- Legal as the destination of `LDHEX` and `LDBIN` (30_encoding.md R93, third column). -/
def DataReg.legalDestination : DataReg → Bool
  | .key => true
  | .din => true
  | .dout => false

/-- Legal as the source of `STHEX` and `STBIN` (30_encoding.md R93, fourth column). -/
def DataReg.legalSource : DataReg → Bool
  | .key => true
  | .din => true
  | .dout => true

/-- The command has an encoding in the opcode map (30_encoding.md R94). -/
def Instr.wellFormed : Instr → Bool
  | .nop => true
  | .keysched => true
  | .enc => true
  | .dec => true
  | .ldhex rd => rd.legalDestination
  | .ldbin rd => rd.legalDestination
  | .sthex rs => rs.legalSource
  | .stbin rs => rs.legalSource
  | .srst => true

end Sys2Proof
end

