-- ==== Sys2Proof/Decode.lean ====
section
/-! DEFINITION. Decoding a value written to CMD (spec 30_encoding.md rules R90 to R95, R100), total and rejecting by
name, and the encoder written from the same tables. -/

namespace Sys2Proof

/-- Why a value is ILLEGAL (30_encoding.md R95). Every one of these raises `ILLEGAL_CMD` (R100, R252). -/
inductive DecodeError where
  /-- A bit of `v[63:8]` is set (R90). -/
  | highBits
  /-- `v[7:4]` is the operation code of no command (R94, R95). -/
  | reservedOp
  /-- The must-be-zero field of format C0 or C1 is not zero, or an `op = 1111` byte is not `0xFF` (R91, R92). -/
  | nonzeroField
  /-- `rsel` selects no register that is legal for the command (R93). -/
  | illegalRegister
  deriving DecidableEq, Repr

/-- The register `rsel` selects (R93). -/
def dataRegOfRsel (rsel : BitVec 2) : Option DataReg :=
  match rsel.toNat with
  | 0 => some .key
  | 1 => some .din
  | 2 => some .dout
  | _ => none

/-- The field `rsel` of a register (R93). -/
def rselOfDataReg : DataReg → BitVec 2
  | .key => 0b00#2
  | .din => 0b01#2
  | .dout => 0b10#2

/-- Format C0 (R91): the low four bits must be zero. -/
def decodeC0 (i : Instr) (b : BitVec 8) : Except DecodeError Instr :=
  if b.extractLsb' 0 4 = 0#4 then .ok i else .error .nonzeroField

/-- Format C1 (R92): bits `[3:2]` must be zero, `rsel` is bits `[1:0]` and must select a register legal for the
command (R93). -/
def decodeC1 (mk : DataReg → Instr) (legal : DataReg → Bool) (b : BitVec 8) : Except DecodeError Instr :=
  if b.extractLsb' 2 2 = 0#2 then
    match dataRegOfRsel (b.extractLsb' 0 2) with
    | some r => if legal r then .ok (mk r) else .error .illegalRegister
    | none => .error .illegalRegister
  else .error .nonzeroField

/-- Decoding of the low byte by its operation code `[7:4]` (R91 to R94). -/
def decodeByte (b : BitVec 8) : Except DecodeError Instr :=
  match (b.extractLsb' 4 4).toNat with
  | 0x0 => decodeC0 .nop b
  | 0x1 => decodeC0 .keysched b
  | 0x2 => decodeC0 .enc b
  | 0x3 => decodeC0 .dec b
  | 0x4 => decodeC1 .ldhex DataReg.legalDestination b
  | 0x5 => decodeC1 .ldbin DataReg.legalDestination b
  | 0x6 => decodeC1 .sthex DataReg.legalSource b
  | 0x7 => decodeC1 .stbin DataReg.legalSource b
  | 0xF => if b = 0xFF#8 then .ok .srst else .error .nonzeroField
  | _ => .error .reservedOp

/-- `Decode(v)` (R100), total on 64-bit values. -/
def decode (v : Word64) : Except DecodeError Instr :=
  if v.extractLsb' 8 56 = 0#56 then decodeByte (v.extractLsb' 0 8) else .error .highBits

/-- The byte of format C0 (R91). -/
def encodeC0 (op : BitVec 4) : BitVec 8 := op ++ 0#4

/-- The byte of format C1 (R92). -/
def encodeC1 (op : BitVec 4) (r : DataReg) : BitVec 8 := op ++ 0#2 ++ rselOfDataReg r

/-- The command byte (R94). -/
def encodeByte : Instr → BitVec 8
  | .nop => encodeC0 0x0#4
  | .keysched => encodeC0 0x1#4
  | .enc => encodeC0 0x2#4
  | .dec => encodeC0 0x3#4
  | .ldhex rd => encodeC1 0x4#4 rd
  | .ldbin rd => encodeC1 0x5#4 rd
  | .sthex rs => encodeC1 0x6#4 rs
  | .stbin rs => encodeC1 0x7#4 rs
  | .srst => 0xFF#8

/-- The 64-bit value a host writes to CMD for the command: the byte, zero-extended (R98). -/
def encode (i : Instr) : Word64 := 0#56 ++ encodeByte i

/-- The value an instruction of the opcode table stands for: its `nbits` bits `w`, every bit above them zero. -/
def commandWord (nbits w : Nat) : Word64 := BitVec.ofNat 64 (w % 2 ^ nbits)

/-- The host's question about a row of spec/opcode_table.json: what the decoder reads from its bits. -/
def decodeTableWord (nbits w : Nat) : Option Instr :=
  match decode (commandWord nbits w) with
  | .ok i => some i
  | .error _ => none

end Sys2Proof
end

