-- ==== Sys2Proof/Config.lean ====
section
/-! DEFINITION. What the spec leaves open and the model leaves free. The constant tables stand in
Machine/Tables.lean (a later audit may replace them there: spec 93_implementation_defined.md part B). -/

namespace Sys2Proof

/-- FREE VALUE (log entry 3). `Config.hostSlots n` is how many actions the host takes, while BUSY = 1, before the
sequencer's next step, at the `n`-th point where the spec leaves the interleaving open: "between any two host actions
the sequencer may have taken zero or more of the steps it has left" (20_memory.md R70), and the sequencer takes its
step "after a finite time" (70_reset_and_hazards.md R303), hence a natural number and nothing more. -/
opaque Config.hostSlots : Nat → Nat

end Sys2Proof
end

