-- ==== Sys2Proof/Machine/State.lean ====
section
/-! DEFINITION. The state of one CORE instance, all that spec 10_state.md rule R20 lists, the host side the model adds
(log entries 1, 3), the reasons a step can stop, and the state after reset (R41). -/

namespace Sys2Proof.Machine

/-- Direction of the last accepted block command, `STATUS.MODE` (10_state.md R28). -/
inductive Mode where
  | enc
  | dec
  deriving DecidableEq, Repr

/-- `STATUS.CAUSE` (60_exceptions.md R251). Codes 8 to 15 are "reserved, never" and have no constructor. -/
inductive Cause where
  /-- Code 0: no fault is recorded. -/
  | none
  /-- Code 1 (R252). -/
  | illegalCmd
  /-- Code 2 (R253). -/
  | busyAccess
  /-- Code 3 (R254). -/
  | badAddr
  /-- Code 4 (R255). -/
  | noKey
  /-- Code 5 (R256). -/
  | noData
  /-- Code 6 (R257). -/
  | encoding
  /-- Code 7: "raised by nothing" (R258). -/
  | internal
  deriving DecidableEq, Repr

/-- `SEQ.PHASE` (10_state.md R30). Codes 6 and 7 "are never taken" and have no constructor. -/
inductive Phase where
  | idle
  | ksPc1
  | ksRot
  | iperm
  | round
  | fperm
  deriving DecidableEq, Repr

/-- `SEQ.OP`: the command in progress (10_state.md R30). -/
inductive Op where
  | none
  | keysched
  | enc
  | dec
  deriving DecidableEq, Repr

/-- An SboxLookup record (10_state.md R37; the row is two bits, 90_conflicts.md C1). -/
structure SboxLookup where
  box : BitVec 8
  input : BitVec 6
  row : BitVec 2
  column : BitVec 4
  output : BitVec 4
  deriving DecidableEq, Repr

/-- The SboxLookup record with every field zero (R39, R41). -/
def SboxLookup.zero : SboxLookup := ⟨0#8, 0#6, 0#2, 0#4, 0#4⟩

/-- A RoundTrace record (10_state.md R36). -/
structure TraceRecord where
  round : BitVec 8
  subkey : Subkey
  lBefore : HalfBlock
  rBefore : HalfBlock
  expanded : BitVec 48
  xored : BitVec 48
  lookup : Vector SboxLookup 8
  spOut : HalfBlock
  lAfter : HalfBlock
  rAfter : HalfBlock
  deriving DecidableEq, Repr

/-- The RoundTrace record with every field zero (R39, R41). -/
def TraceRecord.zero : TraceRecord where
  round := 0#8
  subkey := 0#48
  lBefore := 0#32
  rBefore := 0#32
  expanded := 0#48
  xored := 0#48
  lookup := Vector.replicate 8 SboxLookup.zero
  spOut := 0#32
  lAfter := 0#32
  rAfter := 0#32

/-- The text buffer TBUF (10_state.md R33) as (address, byte) cells, in the canonical form `Memory.wf` says. -/
abbrev Memory := List Host.Cell

/-- What the host does to CORE (00_scope.md R15, 30_encoding.md R98). -/
inductive HostAction where
  /-- `HostWrite(index, value)` (20_memory.md R66). -/
  | write (index : Index) (value : Word64)
  /-- `HostRead(index)` (20_memory.md R65). -/
  | read (index : Index)
  /-- `HostReset` (70_reset_and_hazards.md R290), the script line `rst`. -/
  | reset
  /-- The script line `wait`: reads of STATUS until one returns `BUSY = 0` (30_encoding.md R98; log entry 4). -/
  | wait
  deriving DecidableEq, Repr

/-- The host side of the interface. THE MODEL'S OWN, not state of CORE: which actions are still to come, what the reads
have returned, and who moves next while BUSY = 1 (20_memory.md R70; log entries 1, 3). -/
structure HostSide where
  /-- The host's actions still to come, in the order it issues them. -/
  script : List HostAction
  /-- What the host's reads have returned, oldest first: index and value. -/
  reads : List (Index × Word64)
  /-- How many times a limit of host actions has been drawn or passed over; the argument of `Config.hostSlots`. -/
  turn : Nat
  /-- Host actions left before the sequencer's next step; `none` while no limit has been drawn. -/
  slots : Option Nat
  deriving DecidableEq, Repr

/-- The whole state of one CORE instance (10_state.md R20), and the host side `env`. -/
structure State where
  /-- The key, parity bits present (R21). -/
  key : Word64
  /-- The input Block (R22). -/
  din : Word64
  /-- The output Block (R23). -/
  dout : Word64
  /-- The left HalfBlock `L` (R24). -/
  l : HalfBlock
  /-- The right HalfBlock `R` (R24). -/
  r : HalfBlock
  /-- The first half of the permuted key, `C` (R25). -/
  c : KeyHalf
  /-- The second half of the permuted key, `D` (R25). -/
  d : KeyHalf
  /-- The subkey file `SK[1..16]` (R26); entry `i - 1` is `SK[i]`. -/
  sk : Vector Subkey 16
  /-- `STATUS.BUSY` (R28). -/
  busy : Bool
  /-- `STATUS.DONE` (R28). -/
  done : Bool
  /-- `STATUS.SKV` (R28). -/
  skv : Bool
  /-- `STATUS.KEYW` (R28). -/
  keyw : Bool
  /-- `STATUS.DINW` (R28). -/
  dinw : Bool
  /-- `STATUS.FAULT` (R28). -/
  fault : Bool
  /-- `STATUS.MODE` (R28). -/
  mode : Mode
  /-- `STATUS.CAUSE` (R28). -/
  cause : Cause
  /-- `SEQ.PHASE` (R30). -/
  phase : Phase
  /-- `SEQ.RND` (R30). -/
  rnd : BitVec 5
  /-- `SEQ.OP` (R30). -/
  op : Op
  /-- The trace-valid mask `TRV` (R32). -/
  trv : BitVec 16
  /-- The text buffer `TBUF[0..63]` (R33). -/
  tbuf : Memory
  /-- The round-trace memory `TR[1..16]` (R35); entry `i - 1` is `TR[i]`. -/
  tr : Vector TraceRecord 16
  /-- The host side (the model's own). -/
  env : HostSide
  deriving DecidableEq, Repr

/-- Why a step of the MODEL stops. CORE's own faults (60_exceptions.md R251) are not here: taking one is a next
state (R262). -/
inductive Fault where
  /-- Raised by the sequencer's step in a state for which no rule gives a step: BUSY = 1 with PHASE = IDLE, RND outside
  1..16 in KS_ROT or ROUND, OP neither ENC nor DEC in ROUND. The spec says no such state exists (10_state.md R30,
  70_reset_and_hazards.md R303). Safe: the machine stops where the spec says nothing (log entry 5). -/
  | noSequencerStep
  deriving DecidableEq, Repr

/-- Why the model gives an instruction no meaning. No arm of exec answers one: every command is modelled. -/
inductive Refusal where
  /-- An instruction without a meaning yet, raised by an arm of exec only. Safe. -/
  | notModelled (mnemonic : String)
  deriving DecidableEq, Repr

/-- The host side before anything has happened: nothing to do, nothing read (log entries 1, 3). -/
def HostSide.initial : HostSide where
  script := []
  reads := []
  turn := 0
  slots := none

/-- The machine right after reset: 10_state.md R41 for every piece of CORE's state. -/
def State.reset : State where
  key := 0#64
  din := 0#64
  dout := 0#64
  l := 0#32
  r := 0#32
  c := 0#28
  d := 0#28
  sk := Vector.replicate 16 0#48
  busy := false
  done := false
  skv := false
  keyw := false
  dinw := false
  fault := false
  mode := .enc
  cause := .none
  phase := .idle
  rnd := 0#5
  op := .none
  trv := 0#16
  tbuf := []
  tr := Vector.replicate 16 TraceRecord.zero
  env := HostSide.initial

end Sys2Proof.Machine
end

