-- ==== Sys2Proof/Machine/Bits.lean ====
section
/-! DEFINITION. Bit selection by cipher position (spec 00_scope.md rules R9 to R11) and the functions of the
bit_conversion_unit (40_conversion.md rules R110 to R118). -/

namespace Sys2Proof.Machine

/-- `v<p>`: the bit at cipher position `p`, counted from 1 at the most significant end (R9). -/
def bitAt {w : Nat} (v : BitVec w) (p : Nat) : Bool := v.getMsbD (p - 1)

/-- `Permute(T, v, W)`: the value `o` with `o<j> = v<T[j]>` for every `j` in `1..len(T)` (R11). -/
def permute {w n : Nat} (t : Vector Nat n) (v : BitVec w) : BitVec n :=
  BitVec.ofFnBE fun j => bitAt v t[j]

/-- `rotl28(x, n)` (R10): bits shifted out at the most significant end come back at the other. -/
def rotl28 (x : KeyHalf) (n : Nat) : KeyHalf := (x <<< n) ||| (x >>> (28 - n))

/-- `BytesToBits(b[0..n-1])` (R111): position `8j + m` is bit `8 - m` of byte `b[j]`. -/
def bytesToBits (n : Nat) (b : List Byte) : BitVec (8 * n) :=
  BitVec.ofFnBE fun i => (b.getD (i / 8) 0#8).getMsbD (i % 8)

/-- `BitsToBytes(V, n)` (R112): `b[j] = V[8(n-j)-1 : 8(n-j-1)]`. -/
def bitsToBytes (n : Nat) (v : BitVec (8 * n)) : List Byte :=
  (List.range n).map fun j => v.extractLsb' (8 * (n - j - 1)) 8

/-- `HexVal(c)` (R113), partial: both letter cases have a value, every other code has none. -/
def hexVal (c : Byte) : Option (BitVec 4) :=
  if 0x30 ≤ c.toNat ∧ c.toNat ≤ 0x39 then some (BitVec.ofNat 4 (c.toNat - 0x30))
  else if 0x41 ≤ c.toNat ∧ c.toNat ≤ 0x46 then some (BitVec.ofNat 4 (10 + (c.toNat - 0x41)))
  else if 0x61 ≤ c.toNat ∧ c.toNat ≤ 0x66 then some (BitVec.ofNat 4 (10 + (c.toNat - 0x61)))
  else none

/-- `HexChar(d)` (R114), total, always upper case. -/
def hexChar (d : BitVec 4) : Byte :=
  if d.toNat ≤ 9 then BitVec.ofNat 8 (0x30 + d.toNat) else BitVec.ofNat 8 (0x41 + (d.toNat - 10))

/-- The value of a binary character (R117): `0` or `1`, every other code has none. -/
def binVal (c : Byte) : Option Bool :=
  if c = 0x30#8 then some false else if c = 0x31#8 then some true else none

/-- All the values of a text, when every one of its characters has one (R115, R117: "defined exactly when"). -/
def charValues {α : Type} (f : Byte → Option α) : List Byte → Option (List α)
  | [] => some []
  | c :: t =>
    match f c, charValues f t with
    | some d, some ds => some (d :: ds)
    | _, _ => none

/-- The values of a text of `m` characters (R115, R117): a text of another length has none, nor has one with a character
that has no value. -/
def textValues {α : Type} (m : Nat) (f : Byte → Option α) (t : List Byte) : Option (List α) :=
  if t.length = m then charValues f t else none

/-- The `4m`-bit value of `m` hexadecimal digits, the first the most significant (R115). -/
def digitsToBits (m : Nat) (ds : List (BitVec 4)) : BitVec (4 * m) :=
  BitVec.ofFnBE fun i => (ds.getD (i / 4) 0#4).getMsbD (i % 4)

/-- `HexToBits(t[0..m-1])` (R115), partial: it has a value exactly when `t` is a text of `m` characters, each with a
`HexVal`. -/
def hexToBits (m : Nat) (t : List Byte) : Option (BitVec (4 * m)) :=
  (textValues m hexVal t).map (digitsToBits m)

/-- `BitsToHex(V, m)` (R116): `t[k] = HexChar(V[4(m-k)-1 : 4(m-k-1)])`. -/
def bitsToHex (m : Nat) (v : BitVec (4 * m)) : List Byte :=
  (List.range m).map fun k => hexChar (v.extractLsb' (4 * (m - k - 1)) 4)

/-- `BinToBits(t[0..m-1])` (R117), partial: it has a value exactly when `t` is a text of `m` characters, each `0` or `1`;
character `k` is cipher position `k + 1`. -/
def binToBits (m : Nat) (t : List Byte) : Option (BitVec m) :=
  (textValues m binVal t).map fun bs => BitVec.ofFnBE fun i => bs.getD i false

/-- `BitsToBin(V, m)` (R118): `t[k] = 0x30 + V<k+1>`. -/
def bitsToBin (m : Nat) (v : BitVec m) : List Byte :=
  (List.range m).map fun k => if bitAt v (k + 1) then 0x31#8 else 0x30#8

/-- `HexToBytes(t[0..2n-1])` (R115): a text of `2n` characters, so no text of odd length, has an `n`-byte form. -/
def hexToBytes (n : Nat) (t : List Byte) : Option (List Byte) :=
  (hexToBits (2 * n) t).map fun v => bitsToBytes n (v.setWidth (8 * n))

/-- `BytesToHex(b[0..n-1])` (R116). -/
def bytesToHex (n : Nat) (b : List Byte) : List Byte :=
  bitsToHex (2 * n) ((bytesToBits n b).setWidth (4 * (2 * n)))

end Sys2Proof.Machine
end

