-- ==== Sys2Proof/Machine/Ops.lean ====
section
/-! DEFINITION. The named operations over the text buffer, the sequencer state and the faults (spec 00_scope.md R12,
20_memory.md R63 and R66, 60_exceptions.md R261 and R262, 10_state.md R41). -/

namespace Sys2Proof.Machine

/-! ### The text buffer (log entry 8) -/

/-- `TBUF_BYTES` (00_scope.md R7). -/
def tbufBytes : Nat := 64

/-- What an address no cell lists reads as: the reset contents of TBUF (10_state.md R41). -/
def unlistedByte : Byte := 0x00#8

/-- The canonical form: addresses strictly rising, every address in `TBUF[0..63]`, no cell equal to `unlistedByte`. -/
abbrev Memory.wf (m : Memory) : Prop :=
  m.Pairwise (fun p q => p.1 < q.1) ∧ ∀ p ∈ m, p.1 < tbufBytes ∧ p.2 ≠ unlistedByte

/-- `TBUF[a]` (10_state.md R33). -/
def memGet : Memory → Nat → Byte
  | [], _ => unlistedByte
  | p :: m, a => if p.1 = a then p.2 else memGet m a

/-- The list with `v` put in front, unless an unlisted address reads as `v`. -/
def memCons (a : Nat) (v : Byte) (m : Memory) : Memory :=
  if v = unlistedByte then m else (a, v) :: m

/-- `TBUF[a] <- v` (10_state.md R33), keeping the canonical form. -/
def memSet : Memory → Nat → Byte → Memory
  | [], a, v => memCons a v []
  | p :: m, a, v =>
    if a < p.1 then memCons a v (p :: m)
    else if p.1 = a then memCons a v m
    else p :: memSet m a v

/-- The bytes `TBUF[a], ..., TBUF[a+n-1]`, lowest address first (00_scope.md R12). -/
def memBytes (m : Memory) (a n : Nat) : List Byte := (List.range n).map fun k => memGet m (a + k)

/-- `MemRead(a, n)`: the byte at the lowest address is the most significant (00_scope.md R12, 20_memory.md R63).
Every call in the model has `a + n <= 64`, where R12 defines it. -/
def memRead (m : Memory) (a n : Nat) : BitVec (8 * n) := bytesToBits n (memBytes m a n)

/-- The bytes written one after the other from address `a` up. -/
def memPut : Memory → Nat → List Byte → Memory
  | m, _, [] => m
  | m, a, b :: bs => memPut (memSet m a b) (a + 1) bs

/-- `MemWrite(a, n, v)`: `TBUF[a+k] <- v[8(n-k)-1 : 8(n-k-1)]` (00_scope.md R12). Every call in the model has
`a + n <= 64`, where R12 defines it. -/
def memWrite (m : Memory) (a n : Nat) (v : BitVec (8 * n)) : Memory := memPut m a (bitsToBytes n v)

/-- A write of a text into the buffer from address 0 (40_conversion.md R125, R127). -/
def State.putText (s : State) (t : List Byte) : State := { s with tbuf := memPut s.tbuf 0 t }

/-- `MemWrite(8w, 8, v)`: a host write of the word `TBUFW[w]` (20_memory.md R63). -/
def State.writeTbufWord (w : Fin 8) (v : Word64) (s : State) : State :=
  { s with tbuf := memWrite s.tbuf (8 * w) 8 v }

/-! ### The sequencer state -/

/-- `SEQ <- (p, n)` (10_state.md R30). -/
def State.setSeq (p : Phase) (n : BitVec 5) (s : State) : State := { s with phase := p, rnd := n }

/-- Acceptance of a command: `OP <- o; BUSY <- 1; DONE <- 0; SEQ <- (p, 0)` (41_key_schedule.md R151,
43_block_cipher.md R226). -/
def State.beginCommand (o : Op) (p : Phase) (s : State) : State :=
  { s with op := o, busy := true, done := false, phase := p, rnd := 0#5 }

/-- The end of a command: `SEQ <- (IDLE, 0); OP <- NONE; BUSY <- 0; DONE <- 1` (41_key_schedule.md R153,
43_block_cipher.md R230). -/
def State.endCommand (s : State) : State :=
  { s with phase := .idle, rnd := 0#5, op := .none, busy := false, done := true }

/-- The zero-based slot of a round or subkey number: `RND = i` names entry `i - 1` when `1 <= i <= 16`
(10_state.md R30, R26, R35). -/
def roundSlot (rnd : BitVec 5) : Option (Fin 16) :=
  if h : 1 ≤ rnd.toNat ∧ rnd.toNat ≤ 16 then some ⟨rnd.toNat - 1, by omega⟩ else none

/-! ### Faults and reset -/

/-- Fault entry, `raise Fault(cause)` (60_exceptions.md R262): nothing else is written. -/
def State.raiseFault (c : Cause) (s : State) : State :=
  { s with
    fault := true, cause := c, busy := false, done := false,
    phase := .idle, rnd := 0#5, op := .none }

/-- Every piece of CORE's state takes its reset value (44_system_commands.md R241, 70_reset_and_hazards.md R290). The
host side is not CORE's and stays: it is the return from a fault too (60_exceptions.md R264). -/
def State.toReset (s : State) : State := { State.reset with env := s.env }

/-- What comes before every host write but SRST (20_memory.md R66 lines 2 and 3): a recorded fault makes CORE ignore
the write (60_exceptions.md R261), a command in progress makes it raise `BUSY_ACCESS` (R253); otherwise `body`. -/
def State.gateWrite (body : State → State) (s : State) : State :=
  if s.fault then s else if s.busy then s.raiseFault .busyAccess else body s

end Sys2Proof.Machine
end

