-- ==== Sys2Proof/Machine/KeySchedule.lean ====
section
/-! DEFINITION. The key_schedule_generator (spec 41_key_schedule.md): the datapath and KeySchedule (R140 to R148), the
command KEYSCHED (R151), the steps KS_PC1 and KS_ROT (R152, R153). -/

namespace Sys2Proof.Machine

/-- The pair of halves of the permuted key. -/
abbrev KeyHalves := KeyHalf × KeyHalf

/-- Operation `PC1` (R142): `C0` is the first 28 cipher positions of the permuted key, `D0` the last 28. -/
def pc1Halves (k : Word64) : KeyHalves :=
  ((permute pc1Table k).extractLsb' 28 28, (permute pc1Table k).extractLsb' 0 28)

/-- Operation `ROTL` for round `i + 1` (R145): each half rotated by itself by `SHIFT[i + 1]`. -/
def rotateHalves (i : Fin 16) (cd : KeyHalves) : KeyHalves :=
  (rotl28 cd.1 shiftTable[i], rotl28 cd.2 shiftTable[i])

/-- Operation `PC2` (R147): a subkey from `C ‖ D`, `C` the more significant half. -/
def pc2Subkey (cd : KeyHalves) : Subkey := permute pc2Table (cd.1 ++ cd.2)

/-- `(C_n, D_n)`: the halves after `n` rotations (R145, R148). -/
def halvesAfter (k : Word64) : Nat → KeyHalves
  | 0 => pc1Halves k
  | n + 1 => if h : n < 16 then rotateHalves ⟨n, h⟩ (halvesAfter k n) else halvesAfter k n

/-- `KeySchedule(k)` (R148): the ordered sequence `K_1, ..., K_16`; entry `i - 1` is `K_i`. -/
def keySchedule (k : Word64) : Vector Subkey 16 := Vector.ofFn fun i => pc2Subkey (halvesAfter k (i + 1))

/-- `KEYSCHED` (R151): `NO_KEY` when `KEY` was never written since reset, else acceptance. -/
def execKeysched (s : State) : Host.Outcome State Fault Refusal :=
  .next (s.gateWrite fun s =>
    if s.keyw then { s.beginCommand .keysched .ksPc1 with skv := false } else s.raiseFault .noKey)

/-- Step `KS_PC1` (R152). -/
def State.stepKsPc1 (s : State) : State :=
  { s with c := (pc1Halves s.key).1, d := (pc1Halves s.key).2, phase := .ksRot, rnd := 1#5 }

/-- What `KS_ROT` with `RND = i + 1` writes besides SEQ and the flags: the rotated halves and the subkey computed from
them, "not the halves before rotation" (R153). -/
def State.rotateAndSelect (i : Fin 16) (s : State) : State :=
  { s with
    c := (rotateHalves i (s.c, s.d)).1
    d := (rotateHalves i (s.c, s.d)).2
    sk := s.sk.set i (pc2Subkey (rotateHalves i (s.c, s.d))) }

/-- Step `KS_ROT` with `RND = i + 1` (R153). -/
def State.stepKsRot (i : Fin 16) (s : State) : State :=
  if i.val < 15 then (s.rotateAndSelect i).setSeq .ksRot (BitVec.ofNat 5 (i.val + 2))
  else if s.op = .keysched then { (s.rotateAndSelect i).endCommand with skv := true }
  else { (s.rotateAndSelect i).setSeq .iperm 0#5 with skv := true }

end Sys2Proof.Machine
end

