-- ==== Sys2Proof/Machine/RoundEngine.lean ====
section
/-! DEFINITION. The feistel_round_engine (spec 42_round_engine.md rules R170 to R197): combinational, a pure function
of `L`, `R`, `K` and the round index. -/

namespace Sys2Proof.Machine

/-- Operation `EXPAND` (R172). -/
def expand (r : HalfBlock) : BitVec 48 := permute eTable r

/-- Operation `KEYMIX` (R173). -/
def keyMix (e : BitVec 48) (k : Subkey) : BitVec 48 := e ^^^ k

/-- Operation `SPLIT6` (R174): group `b + 1` is `x[53-6(b+1) : 48-6(b+1)]`, group 1 the most significant. -/
def splitGroup (x : BitVec 48) (b : Fin 8) : BitVec 6 := x.extractLsb' (42 - 6 * b.val) 6

/-- The row of a group (R175): `g[5] ‖ g[0]`. -/
def groupRow (g : BitVec 6) : BitVec 2 := g.extractLsb' 5 1 ++ g.extractLsb' 0 1

/-- The column of a group (R175): `g[4:1]`. -/
def groupColumn (g : BitVec 6) : BitVec 4 := g.extractLsb' 1 4

/-- Lookup in a box (R176): `S_b[row][column]`. -/
def sboxEntry (t : Sbox) (row : BitVec 2) (column : BitVec 4) : BitVec 4 := t[row.toNat][column.toNat]

/-- The SboxLookup record of box `b + 1` (R196), its output by R176. -/
def sboxLookup (x : BitVec 48) (b : Fin 8) : SboxLookup where
  box := BitVec.ofNat 8 (b.val + 1)
  input := splitGroup x b
  row := groupRow (splitGroup x b)
  column := groupColumn (splitGroup x b)
  output := sboxEntry sboxTables[b] (groupRow (splitGroup x b)) (groupColumn (splitGroup x b))

/-- The eight records of a round, in box order (R196). -/
def sboxLookups (x : BitVec 48) : Vector SboxLookup 8 := Vector.ofFn (sboxLookup x)

/-- Operation `JOIN4` (R185): box 1 in the most significant nibble. -/
def joinOutputs (u : Vector SboxLookup 8) : HalfBlock :=
  u[0].output ++ u[1].output ++ u[2].output ++ u[3].output ++ u[4].output ++ u[5].output ++ u[6].output ++ u[7].output

/-- Operation `PPERM` (R187). -/
def pperm (x : HalfBlock) : HalfBlock := permute pTable x

/-- Function `F(R, K)` (R188). -/
def feistelF (r : HalfBlock) (k : Subkey) : HalfBlock := pperm (joinOutputs (sboxLookups (keyMix (expand r) k)))

/-- `FMIX`, the new left half (R189): the previous right half. -/
def newLeft (r : HalfBlock) : HalfBlock := r

/-- `FMIX`, the new right half (R189): `L xor F(R, K)`. -/
def newRight (l r : HalfBlock) (k : Subkey) : HalfBlock := l ^^^ feistelF r k

/-- The RoundTrace record of `RoundTransform(L, R, K, i)` (R197). -/
def roundTrace (l r : HalfBlock) (k : Subkey) (i : BitVec 8) : TraceRecord where
  round := i
  subkey := k
  lBefore := l
  rBefore := r
  expanded := expand r
  xored := keyMix (expand r) k
  lookup := sboxLookups (keyMix (expand r) k)
  spOut := feistelF r k
  lAfter := newLeft r
  rAfter := newRight l r k

/-- What `RoundTransform` returns (R170, R190). -/
structure RoundResult where
  left : HalfBlock
  right : HalfBlock
  trace : TraceRecord
  deriving DecidableEq, Repr

/-- Function `RoundTransform(L, R, K, i)` (R190), the same in all sixteen rounds (R191). -/
def roundTransform (l r : HalfBlock) (k : Subkey) (i : BitVec 8) : RoundResult where
  left := newLeft r
  right := newRight l r k
  trace := roundTrace l r k i

end Sys2Proof.Machine
end

