-- ==== Sys2Proof/Machine/BlockCipher.lean ====
section
/-! DEFINITION. The block_cipher_orchestrator (spec 43_block_cipher.md): the datapath (R210 to R219), EncryptBlock and
DecryptBlock (R220, R221), the commands ENC and DEC (R226, R227), the steps IPERM, ROUND and FPERM (R228 to R230). -/

namespace Sys2Proof.Machine

/-- Operation `IP` (R212), before the cut into halves. -/
def initialPermutation (v : Word64) : Word64 := permute ipTable v

/-- Operation `FP` (R214). -/
def finalPermutation (v : Word64) : Word64 := permute fpTable v

/-- `L0` (R212): cipher positions 1..32 of the permuted Block. -/
def leftHalf (x : Word64) : HalfBlock := x.extractLsb' 32 32

/-- `R0` (R212): cipher positions 33..64 of the permuted Block. -/
def rightHalf (x : Word64) : HalfBlock := x.extractLsb' 0 32

/-- The pre-output (R219): the right half first. -/
def preOutput (l r : HalfBlock) : Word64 := r ++ l

/-- The slot of the subkey of round `i + 1`: `SK[i + 1]` when encrypting (R216), `SK[17 - (i + 1)]` when decrypting
(R217). -/
def subkeySlot (m : Mode) (i : Fin 16) : Fin 16 :=
  match m with
  | .enc => i
  | .dec => i.rev

/-- `(L_n, R_n)` (R218), the output pair of round `n`, from `(L_0, R_0)` and the subkeys. -/
def halvesAfterRounds (m : Mode) (ks : Vector Subkey 16) (l r : HalfBlock) : Nat → HalfBlock × HalfBlock
  | 0 => (l, r)
  | n + 1 =>
    if h : n < 16 then
      (newLeft (halvesAfterRounds m ks l r n).2,
        newRight (halvesAfterRounds m ks l r n).1 (halvesAfterRounds m ks l r n).2 ks[subkeySlot m ⟨n, h⟩])
    else halvesAfterRounds m ks l r n

/-- A BlockResult (R223): the output Block and the sixteen RoundTrace records in round order. -/
structure BlockResult where
  output : Word64
  trace : Vector TraceRecord 16
  deriving DecidableEq, Repr

/-- The round index of slot `i`, its position in processing order (42_round_engine.md R195). -/
def roundIndex (i : Fin 16) : BitVec 8 := BitVec.ofNat 8 (i.val + 1)

/-- The body shared by R220 and R221, for the direction `m`. -/
def cipherBlock (m : Mode) (b k : Word64) : BlockResult :=
  let ks := keySchedule k
  let x := initialPermutation b
  let halves := halvesAfterRounds m ks (leftHalf x) (rightHalf x)
  { output := finalPermutation (preOutput (halves 16).1 (halves 16).2)
    trace := Vector.ofFn fun i =>
      (roundTransform (halves i.val).1 (halves i.val).2 ks[subkeySlot m i] (roundIndex i)).trace }

/-- Function `EncryptBlock(p, k)` (R220). -/
def encryptBlock (p k : Word64) : BlockResult := cipherBlock .enc p k

/-- Function `DecryptBlock(c, k)` (R221). -/
def decryptBlock (c k : Word64) : BlockResult := cipherBlock .dec c k

/-- Acceptance of a block command (R226, R227): the checks in order, then the flags, the cleared trace, and the first
phase, which is `IPERM` when `SKV = 1`. -/
def State.acceptBlock (o : Op) (m : Mode) (s : State) : State :=
  if s.keyw then
    if s.dinw then
      { s.beginCommand o (if s.skv then .iperm else .ksPc1) with
        mode := m, trv := 0#16, tr := Vector.replicate 16 TraceRecord.zero }
    else s.raiseFault .noData
  else s.raiseFault .noKey

/-- `ENC` (R226). -/
def execEnc (s : State) : Host.Outcome State Fault Refusal := .next (s.gateWrite (State.acceptBlock .enc .enc))

/-- `DEC` (R227). -/
def execDec (s : State) : Host.Outcome State Fault Refusal := .next (s.gateWrite (State.acceptBlock .dec .dec))

/-- Step `IPERM` (R228). -/
def State.stepIperm (s : State) : State :=
  { s with
    l := leftHalf (initialPermutation s.din), r := rightHalf (initialPermutation s.din)
    phase := .round, rnd := 1#5 }

/-- The direction of the command in progress, when it is a block command (R229). -/
def blockMode : Op → Option Mode
  | .enc => some .enc
  | .dec => some .dec
  | .none => none
  | .keysched => none

/-- What `ROUND` with `RND = i + 1` writes besides SEQ: the halves, the record and its valid bit (R229). -/
def State.runRound (m : Mode) (i : Fin 16) (s : State) : State :=
  let t := roundTransform s.l s.r s.sk[subkeySlot m i] (roundIndex i)
  { s with l := t.left, r := t.right, tr := s.tr.set i t.trace, trv := s.trv ||| (1#16 <<< i.val) }

/-- Step `ROUND` with `RND = i + 1` (R229). -/
def State.stepRound (m : Mode) (i : Fin 16) (s : State) : State :=
  if i.val < 15 then (s.runRound m i).setSeq .round (BitVec.ofNat 5 (i.val + 2))
  else (s.runRound m i).setSeq .fperm 0#5

/-- Step `FPERM` (R230): `L` and `R` are left as they are. -/
def State.stepFperm (s : State) : State :=
  { s.endCommand with dout := finalPermutation (preOutput s.l s.r) }

end Sys2Proof.Machine
end

