-- ==== Sys2Proof/Machine/Operands.lean ====
section
/-! DEFINITION. The register operand of the conversion commands (spec 30_encoding.md rule R93): reading a source,
writing a destination (20_memory.md rule R66, operations WriteKey and WriteDin). -/

namespace Sys2Proof.Machine

/-- `WriteKey(v)`: `KEY <- v; KEYW <- 1; SKV <- 0` (20_memory.md R66 line 6). -/
def State.writeKey (v : Word64) (s : State) : State := { s with key := v, keyw := true, skv := false }

/-- `WriteDin(v)`: `DIN <- v; DINW <- 1` (20_memory.md R66 line 7). -/
def State.writeDin (v : Word64) (s : State) : State := { s with din := v, dinw := true }

/-- The source register of `STHEX` and `STBIN`, read whatever the flags say (40_conversion.md R122). -/
def State.readReg (s : State) : DataReg → Word64
  | .key => s.key
  | .din => s.din
  | .dout => s.dout

/-- The destination write of `LDHEX` and `LDBIN` (40_conversion.md R122). `DOUT` is no destination: that byte is an
illegal command (30_encoding.md R93; log entry 10). -/
def State.loadReg (rd : DataReg) (v : Word64) (s : State) : State :=
  match rd with
  | .key => s.writeKey v
  | .din => s.writeDin v
  | .dout => s.raiseFault .illegalCmd

end Sys2Proof.Machine
end

