-- ==== Sys2Proof/Machine/Conversion.lean ====
section
/-! DEFINITION. The commands of the bit_conversion_unit (spec 40_conversion.md rules R122 to R127). Each runs to
completion inside the host's write. -/

namespace Sys2Proof.Machine

/-- `LDHEX` and `LDBIN` share this shape: the text's value goes to the register, a text without a value raises
`ENCODING` and writes nothing (40_conversion.md R124, R126; 60_exceptions.md R257); a register that is no destination
is an illegal command (30_encoding.md R93; log entry 10). -/
def State.loadText (rd : DataReg) (value : Option Word64) (s : State) : State :=
  if rd.legalDestination then
    match value with
    | some v => s.loadReg rd v
    | none => s.raiseFault .encoding
  else s.raiseFault .illegalCmd

/-- The 64-bit value of the 16 hexadecimal characters `TBUF[0..15]`, when they have one (40_conversion.md R124). -/
def State.hexText (s : State) : Option Word64 := hexToBits 16 (memBytes s.tbuf 0 16)

/-- The 64-bit value of the 64 binary characters `TBUF[0..63]`, when they have one (40_conversion.md R126). -/
def State.binText (s : State) : Option Word64 := binToBits 64 (memBytes s.tbuf 0 64)

/-- `LDHEX rd` (40_conversion.md R124). -/
def execLdhex (rd : DataReg) (s : State) : Host.Outcome State Fault Refusal :=
  .next (s.gateWrite fun s => s.loadText rd s.hexText)

/-- `LDBIN rd` (40_conversion.md R126). -/
def execLdbin (rd : DataReg) (s : State) : Host.Outcome State Fault Refusal :=
  .next (s.gateWrite fun s => s.loadText rd s.binText)

/-- `STHEX rs` (40_conversion.md R125). -/
def execSthex (rs : DataReg) (s : State) : Host.Outcome State Fault Refusal :=
  .next (s.gateWrite fun s => s.putText (bitsToHex 16 (s.readReg rs)))

/-- `STBIN rs` (40_conversion.md R127). -/
def execStbin (rs : DataReg) (s : State) : Host.Outcome State Fault Refusal :=
  .next (s.gateWrite fun s => s.putText (bitsToBin 64 (s.readReg rs)))

end Sys2Proof.Machine
end

