-- ==== Sys2Proof/Machine/System.lean ====
section
/-! DEFINITION. The system commands (spec 44_system_commands.md rules R240, R241). -/

namespace Sys2Proof.Machine

/-- `NOP` (44_system_commands.md R240): no write; `BUSY_ACCESS` while BUSY = 1, ignored while FAULT = 1. -/
def execNop (s : State) : Host.Outcome State Fault Refusal := .next (s.gateWrite fun s => s)

/-- `SRST` (44_system_commands.md R241): obeyed in every state (20_memory.md R66 line 1). -/
def execSrst (s : State) : Host.Outcome State Fault Refusal := .next s.toReset

end Sys2Proof.Machine
end

