-- ==== Sys2Proof/Machine/Dispatch.lean ====
section
/-! DEFINITION. Which meaning each command has: one arm per constructor of Instr, in the order of the opcode map
(spec 30_encoding.md rule R94). -/

namespace Sys2Proof.Machine

def exec (i : Instr) (s : State) : Host.Outcome State Fault Refusal :=
  match i with
  | .nop => Sys2Proof.Machine.execNop s
  | .keysched => Sys2Proof.Machine.execKeysched s
  | .enc => Sys2Proof.Machine.execEnc s
  | .dec => Sys2Proof.Machine.execDec s
  | .ldhex rd => Sys2Proof.Machine.execLdhex rd s
  | .ldbin rd => Sys2Proof.Machine.execLdbin rd s
  | .sthex rs => Sys2Proof.Machine.execSthex rs s
  | .stbin rs => Sys2Proof.Machine.execStbin rs s
  | .srst => Sys2Proof.Machine.execSrst s

end Sys2Proof.Machine
end

