-- ==== Sys2Proof/Machine/Flags.lean ====
section
/-! DEFINITION. The words STATUS and SEQ, their codes (spec 10_state.md rules R28, R30, 60_exceptions.md R251) and the
output pins (60_exceptions.md R266). What sets and clears each flag (10_state.md R29) stands in the operation that
does it. -/

namespace Sys2Proof.Machine

/-- The code of a fault cause (60_exceptions.md R251). -/
def causeCode : Cause → BitVec 4
  | .none => 0#4
  | .illegalCmd => 1#4
  | .busyAccess => 2#4
  | .badAddr => 3#4
  | .noKey => 4#4
  | .noData => 5#4
  | .encoding => 6#4
  | .internal => 7#4

/-- The code of `MODE` (10_state.md R28). -/
def modeBit : Mode → BitVec 1
  | .enc => 0#1
  | .dec => 1#1

/-- The code of `PHASE` (10_state.md R30). -/
def phaseCode : Phase → BitVec 3
  | .idle => 0#3
  | .ksPc1 => 1#3
  | .ksRot => 2#3
  | .iperm => 3#3
  | .round => 4#3
  | .fperm => 5#3

/-- The code of `OP` (10_state.md R30). -/
def opCode : Op → BitVec 2
  | .none => 0#2
  | .keysched => 1#2
  | .enc => 2#2
  | .dec => 3#2

/-- `STATUS` (10_state.md R28), bit 15 first; reserved bits read 0. -/
def State.status (s : State) : BitVec 16 :=
  0#4 ++ causeCode s.cause ++ 0#1 ++ modeBit s.mode ++ BitVec.ofBool s.fault ++ BitVec.ofBool s.dinw ++
    BitVec.ofBool s.keyw ++ BitVec.ofBool s.skv ++ BitVec.ofBool s.done ++ BitVec.ofBool s.busy

/-- `SEQ` (10_state.md R30), bit 15 first; reserved bits read 0. -/
def State.seq (s : State) : BitVec 16 := 0#6 ++ opCode s.op ++ s.rnd ++ phaseCode s.phase

/-- The output pin `busy` (60_exceptions.md R266). -/
def State.pinBusy (s : State) : Bool := s.busy

/-- The output pin `done` (60_exceptions.md R266). -/
def State.pinDone (s : State) : Bool := s.done

/-- The output pin `fault` (60_exceptions.md R266). -/
def State.pinFault (s : State) : Bool := s.fault

end Sys2Proof.Machine
end

