-- ==== Sys2Proof/Machine/Sequencer.lean ====
section
/-! DEFINITION. The sequencer's step, decided by PHASE alone (spec 10_state.md rule R31, 43_block_cipher.md R231). -/

namespace Sys2Proof.Machine

/-- The step of the present phase (R31). Where no rule gives a step the machine stops by name (log entry 5). -/
def phaseStep (s : State) : Host.Outcome State Fault Refusal :=
  match s.phase with
  | .idle => .fault .noSequencerStep
  | .ksPc1 => .next s.stepKsPc1
  | .ksRot =>
    match roundSlot s.rnd with
    | some i => .next (s.stepKsRot i)
    | none => .fault .noSequencerStep
  | .iperm => .next s.stepIperm
  | .round =>
    match roundSlot s.rnd, blockMode s.op with
    | some i, some m => .next (s.stepRound m i)
    | _, _ => .fault .noSequencerStep
  | .fperm => .next s.stepFperm

end Sys2Proof.Machine
end

