-- ==== Sys2Proof/Machine/HostInterface.lean ====
section
/-! DEFINITION. The register index space (spec 20_memory.md rules R61, R62, R65, R66), the host's actions, and which
agent moves next (R70, 70_reset_and_hazards.md R303). -/

namespace Sys2Proof.Machine

/-- A register of the index map (20_memory.md R61). Indexes are zero-based: `sk 0` is `SK[1]`, `trw 0 w` is word `w` of
`TR[1]`. -/
inductive RegName where
  | cmd
  | status
  | seq
  | trv
  | key
  | din
  | dout
  | lr
  | cd
  | sk (i : Fin 16)
  | tbufw (w : Fin 8)
  | trw (i : Fin 16) (w : Fin 10)
  deriving DecidableEq, Repr

/-- The index of a register (20_memory.md R61). -/
def regIndex : RegName → Index
  | .cmd => 0x000#12
  | .status => 0x001#12
  | .seq => 0x002#12
  | .trv => 0x003#12
  | .key => 0x004#12
  | .din => 0x005#12
  | .dout => 0x006#12
  | .lr => 0x007#12
  | .cd => 0x008#12
  | .sk i => BitVec.ofNat 12 (0x010 + i.val)
  | .tbufw w => BitVec.ofNat 12 (0x040 + w.val)
  | .trw i w => BitVec.ofNat 12 (0x100 + 16 * i.val + w.val)

/-- The register an index names, `none` for a reserved index (20_memory.md R61, R62). -/
def regAt (a : Index) : Option RegName :=
  if a.toNat = 0x000 then some .cmd
  else if a.toNat = 0x001 then some .status
  else if a.toNat = 0x002 then some .seq
  else if a.toNat = 0x003 then some .trv
  else if a.toNat = 0x004 then some .key
  else if a.toNat = 0x005 then some .din
  else if a.toNat = 0x006 then some .dout
  else if a.toNat = 0x007 then some .lr
  else if a.toNat = 0x008 then some .cd
  else if h : 0x010 ≤ a.toNat ∧ a.toNat < 0x020 then some (.sk ⟨a.toNat - 0x010, by omega⟩)
  else if h : 0x040 ≤ a.toNat ∧ a.toNat < 0x048 then some (.tbufw ⟨a.toNat - 0x040, by omega⟩)
  else if h : 0x100 ≤ a.toNat ∧ a.toNat < 0x200 ∧ a.toNat % 16 < 10 then
    some (.trw ⟨(a.toNat - 0x100) / 16, by omega⟩ ⟨a.toNat % 16, by omega⟩)
  else none

/-- An SboxLookup record packed into 32 bits, bit 31 first (10_state.md R37). -/
def packLookup (u : SboxLookup) : BitVec 32 :=
  u.box ++ 0#2 ++ u.input ++ 0#2 ++ u.row ++ u.column ++ 0#4 ++ u.output

/-- Word `w` of a trace record (10_state.md R38). -/
def traceWord (t : TraceRecord) (w : Fin 10) : Word64 :=
  match w with
  | 0 => t.round ++ 0#8 ++ t.subkey
  | 1 => t.lBefore ++ t.rBefore
  | 2 => t.expanded.setWidth 64
  | 3 => t.xored.setWidth 64
  | 4 => packLookup t.lookup[0] ++ packLookup t.lookup[1]
  | 5 => packLookup t.lookup[2] ++ packLookup t.lookup[3]
  | 6 => packLookup t.lookup[4] ++ packLookup t.lookup[5]
  | 7 => packLookup t.lookup[6] ++ packLookup t.lookup[7]
  | 8 => t.spOut ++ 0#32
  | 9 => t.lAfter ++ t.rAfter

/-- The value a register reads as (20_memory.md R65; narrow registers zero-extended, 10_state.md R43). -/
def State.regValue (s : State) : RegName → Word64
  | .cmd => 0#64
  | .status => s.status.setWidth 64
  | .seq => s.seq.setWidth 64
  | .trv => s.trv.setWidth 64
  | .key => s.key
  | .din => s.din
  | .dout => s.dout
  | .lr => s.l ++ s.r
  | .cd => (s.c ++ s.d).setWidth 64
  | .sk i => s.sk[i].setWidth 64
  | .tbufw w => memRead s.tbuf (8 * w) 8
  | .trw i w => traceWord s.tr[i] w

/-- `HostRead(a)`, the value (20_memory.md R65): a reserved index reads as 0. -/
def hostRead (a : Index) (s : State) : Word64 :=
  match regAt a with
  | some n => s.regValue n
  | none => 0#64

/-- A write to CMD (20_memory.md R66 lines 1 and 5): a command runs its rule, which holds the checks of lines 2 and 3
(SRST has none); an ILLEGAL value raises `ILLEGAL_CMD` (30_encoding.md R100) after the same checks. -/
def writeCommand (v : Word64) (s : State) : Host.Outcome State Fault Refusal :=
  match decode v with
  | .ok i => exec i s
  | .error _ => .next (s.gateWrite (State.raiseFault .illegalCmd))

/-- `HostWrite(a, v)` (20_memory.md R66). -/
def hostWrite (a : Index) (v : Word64) (s : State) : Host.Outcome State Fault Refusal :=
  match regAt a with
  | some .cmd => writeCommand v s
  | some .key => .next (s.gateWrite (State.writeKey v))
  | some .din => .next (s.gateWrite (State.writeDin v))
  | some (.tbufw w) => .next (s.gateWrite (State.writeTbufWord w v))
  | _ => .next (s.gateWrite (State.raiseFault .badAddr))

/-- A read as the host sees it: the value is added to what it has read; CORE is unchanged (20_memory.md R65). -/
def State.noteRead (a : Index) (s : State) : State :=
  { s with env := { s.env with reads := s.env.reads ++ [(a, hostRead a s)] } }

/-- The script line `wait` (30_encoding.md R98): a read of STATUS, once more while the value read has `BUSY = 1`
(log entry 4). -/
def State.pollStatus (s : State) : State :=
  if s.busy then
    { s.noteRead (regIndex .status) with
      env := { (s.noteRead (regIndex .status)).env with script := HostAction.wait :: s.env.script } }
  else s.noteRead (regIndex .status)

/-- One action of the host (00_scope.md R15). -/
def hostAct (a : HostAction) (s : State) : Host.Outcome State Fault Refusal :=
  match a with
  | .write i v => hostWrite i v s
  | .read i => .next (s.noteRead i)
  | .reset => .next s.toReset
  | .wait => .next s.pollStatus

/-! ### Who moves next (log entry 3) -/

/-- How many actions the host still takes before the sequencer's next step: the limit drawn, or the free value. -/
def State.hostBudget (s : State) : Nat := s.env.slots.getD (Config.hostSlots s.env.turn)

/-- The sequencer moves next: BUSY = 1 (10_state.md R31) and the host has nothing to do or has used up its limit. -/
def State.sequencerMoves (s : State) : Bool := s.busy && (s.env.script.isEmpty || s.hostBudget == 0)

/-- The host side after the sequencer has moved: a fresh limit is to be drawn. -/
def State.sequencerTook (s : State) : State :=
  { s with env := { s.env with turn := s.env.turn + 1, slots := none } }

/-- The host side when the host takes its next action, `rest` being what is left of its script: while BUSY = 1 one
action of the limit is used up, otherwise a fresh limit is to be drawn for the next command. -/
def State.hostTook (rest : List HostAction) (s : State) : State :=
  if s.busy then { s with env := { s.env with script := rest, slots := some (s.hostBudget - 1) } }
  else { s with env := { s.env with script := rest, turn := s.env.turn + 1, slots := none } }

/-- The next action of the total order (20_memory.md R70): a sequencer step, or the host's next action; with neither,
CORE waits (70_reset_and_hazards.md R292; log entry 6). -/
def oneAction (s : State) : Host.Outcome State Fault Refusal :=
  if s.sequencerMoves then phaseStep s.sequencerTook
  else
    match s.env.script with
    | [] => .next s
    | a :: rest => hostAct a (s.hostTook rest)

/-- The state with a host write of a command placed as the next action of all (log entry 2): it is first in the script
and the host has at least one action before the sequencer moves. -/
def State.placeCommand (v : Word64) (s : State) : State :=
  { s with env := { s.env with
      script := HostAction.write (regIndex .cmd) v :: s.env.script
      slots := some (s.env.slots.getD 0 + 1) } }

end Sys2Proof.Machine
end

