-- ==== Sys2Proof/Machine/Step.lean ====
section
/-! DEFINITION. One step of the machine: one action of the one total order (spec 20_memory.md rule R70), a host action
or a sequencer step. -/

namespace Sys2Proof.Machine

/-- One step (Machine/HostInterface.lean says which action it is). -/
def step (s : State) : Host.Outcome State Fault Refusal := oneAction s

/-- The state whose very next step is the host's write of the command with the bits `w` to CMD (log entry 2). -/
def State.withFetchWord (s : State) (nbits w : Nat) : State := s.placeCommand (commandWord nbits w)

end Sys2Proof.Machine
end

