-- ==== Sys2Proof/Machine/Script.lean ====
section
/-! DEFINITION. The host-script syntax of the spec's programs and its expansion into host actions
(spec 30_encoding.md rules R98, R99). -/

namespace Sys2Proof.Machine

/-- The `<reg>` of a script line: a name of the index map, or a numeric index (R98). -/
inductive ScriptReg where
  | name (r : RegName)
  | index (a : Index)
  deriving DecidableEq, Repr

/-- A line of a host script (R98) or a pseudo-instruction (R99); texts are character codes. -/
inductive ScriptLine where
  | wr (r : ScriptReg) (v : Word64)
  | rd (r : ScriptReg)
  | cmd (i : Instr)
  | wait
  | rst
  | txt (t : List Byte)
  | ldkey (t : List Byte)
  | lddin (t : List Byte)
  | encrypt
  | decrypt
  deriving DecidableEq, Repr

/-- `index(<reg>)` (R98). -/
def scriptIndex : ScriptReg → Index
  | .name r => regIndex r
  | .index a => a

/-- `cmd <mnemonic> [<register>]` is `HostWrite(0x000, <byte>)` (R98). -/
def cmdAction (i : Instr) : HostAction := .write (regIndex .cmd) (encode i)

/-- The eight character codes `t[8w..8w+7]`, the first most significant, missing ones `0x00` (R99). -/
def textWord (t : List Byte) (w : Nat) : Word64 :=
  bytesToBits 8 ((List.range 8).map fun k => t.getD (8 * w + k) 0x00#8)

/-- `txt "<s>"` (R99): one write of `TBUFW[w]` for `w = 0 .. ceil(len(s)/8) - 1`. A text of more than 64 characters
goes on to the reserved indexes after `TBUFW[7]`, where a write raises `BAD_ADDR` (20_memory.md R62). -/
def txtActions (t : List Byte) : List HostAction :=
  (List.range ((t.length + 7) / 8)).map fun w => .write (BitVec.ofNat 12 (0x040 + w)) (textWord t w)

/-- The host actions of one line (R98, R99). -/
def expandLine : ScriptLine → List HostAction
  | .wr r v => [.write (scriptIndex r) v]
  | .rd r => [.read (scriptIndex r)]
  | .cmd i => [cmdAction i]
  | .wait => [.wait]
  | .rst => [.reset]
  | .txt t => txtActions t
  | .ldkey t => txtActions t ++ [cmdAction (.ldhex .key)]
  | .lddin t => txtActions t ++ [cmdAction (.ldhex .din)]
  | .encrypt => [cmdAction .enc, .wait]
  | .decrypt => [cmdAction .dec, .wait]

/-- The encoding of a script: the list of its host actions, in order (R98). -/
def expandScript (lines : List ScriptLine) : List HostAction := lines.flatMap expandLine

/-- The state from which a program of the spec's 95_test_vectors.md runs: reset, the script to come (log entry 2). -/
def State.withScript (s : State) (lines : List ScriptLine) : State :=
  { s with env := { s.env with script := s.env.script ++ expandScript lines } }

end Sys2Proof.Machine
end

