-- ==== Sys2Proof/Safety.lean ====
section
/-! DEFINITION. What the spec promises of every state a run can reach (10_state.md rules R30, R32, R39,
41_key_schedule.md R156, 43_block_cipher.md R231 to R233, 60_exceptions.md R251, R262), as predicates on a state, in the
terms the claims use. -/

namespace Sys2Proof.Machine

/-- CORE is ready for a host write: no command in progress, no fault recorded (20_memory.md R66 lines 2 and 3). -/
def State.ready (s : State) : Prop := s.busy = false ∧ s.fault = false

/-- The command in progress is a block command. -/
abbrev Op.isBlock (o : Op) : Prop := o = .enc ∨ o = .dec

/-- SEQ agrees with BUSY (10_state.md R30): `PHASE = IDLE` exactly when `BUSY = 0`, and then `RND = 0` and `OP = NONE`;
`RND` is 1..16 in KS_ROT and ROUND and 0 in every other phase; the block phases belong to a block command (R231). -/
def State.seqLegal (s : State) : Prop :=
  match s.phase with
  | .idle => s.busy = false ∧ s.rnd = 0#5 ∧ s.op = .none
  | .ksPc1 => s.busy = true ∧ s.rnd = 0#5 ∧ s.op ≠ .none
  | .ksRot => s.busy = true ∧ (1 ≤ s.rnd.toNat ∧ s.rnd.toNat ≤ 16) ∧ s.op ≠ .none
  | .iperm => s.busy = true ∧ s.rnd = 0#5 ∧ s.op.isBlock
  | .round => s.busy = true ∧ (1 ≤ s.rnd.toNat ∧ s.rnd.toNat ≤ 16) ∧ s.op.isBlock
  | .fperm => s.busy = true ∧ s.rnd = 0#5 ∧ s.op.isBlock

/-- The flags agree with each other: `CAUSE` is 0 exactly when `FAULT = 0` (10_state.md R28) and is never INTERNAL
(60_exceptions.md R258); a fault leaves `BUSY = DONE = 0` (R262); `BUSY` and `DONE` exclude each other (10_state.md
R29); a command in progress or a valid schedule has a written key, a block command a written block (60_exceptions.md
R255, R256). -/
structure State.FlagsLegal (s : State) : Prop where
  cause_none : s.cause = .none ↔ s.fault = false
  cause_internal : s.cause ≠ .internal
  fault_busy : s.fault = true → s.busy = false
  fault_done : s.fault = true → s.done = false
  busy_done : s.busy = true → s.done = false
  busy_keyw : s.busy = true → s.keyw = true
  skv_keyw : s.skv = true → s.keyw = true
  block_dinw : s.op.isBlock → s.dinw = true
  enc_mode : s.op = .enc → s.mode = .enc
  dec_mode : s.op = .dec → s.mode = .dec

/-- `SKV` against the phase: 0 while the schedule is being derived, 1 in the block phases (41_key_schedule.md R151,
R153; 43_block_cipher.md R229). -/
def State.skvLegal (s : State) : Prop :=
  match s.phase with
  | .idle => True
  | .ksPc1 => s.skv = false
  | .ksRot => s.skv = false
  | .iperm => s.skv = true
  | .round => s.skv = true
  | .fperm => s.skv = true

/-- The control state is legal: all of the above. -/
structure State.ControlLegal (s : State) : Prop where
  seq : s.seqLegal
  flags : s.FlagsLegal
  skv : s.skvLegal

/-- Bit `i` of `TRV`: whether `TR[i + 1]` holds a record (10_state.md R32). -/
def State.trvBit (s : State) (i : Fin 16) : Bool := s.trv.getLsbD i

/-- The trace memory against `TRV`: a record that is not valid is zero (10_state.md R39), a valid one is the record of
the round of its number (42_round_engine.md R195, R197). -/
def State.recordsLegal (s : State) : Prop :=
  ∀ i : Fin 16,
    (s.trvBit i = false → s.tr[i] = TraceRecord.zero) ∧
      (s.trvBit i = true → s.tr[i] = roundTrace s.tr[i].lBefore s.tr[i].rBefore s.tr[i].subkey (roundIndex i))

/-- `TRV` against the phase (10_state.md R32): of a block command, no round has run before ROUND, the rounds before
`RND` have run in ROUND, all sixteen have run in FPERM. -/
def State.trvLegal (s : State) : Prop :=
  match s.phase with
  | .idle => True
  | .ksPc1 => s.op ≠ .keysched → s.trv = 0x0000#16
  | .ksRot => s.op ≠ .keysched → s.trv = 0x0000#16
  | .iperm => s.trv = 0x0000#16
  | .round => ∀ i : Fin 16, s.trvBit i = true ↔ i.val + 1 < s.rnd.toNat
  | .fperm => s.trv = 0xFFFF#16

/-- The trace memory is legal. -/
structure State.TraceLegal (s : State) : Prop where
  records : s.recordsLegal
  mask : s.trvLegal

/-- The halves that enter round `n + 1` of the block command `m` on the Block in `DIN` under `KEY`
(43_block_cipher.md R218). -/
def State.blockHalves (s : State) (m : Mode) (n : Nat) : HalfBlock × HalfBlock :=
  halvesAfterRounds m (keySchedule s.key) (leftHalf (initialPermutation s.din)) (rightHalf (initialPermutation s.din)) n

/-- The first `n` records are those of the BlockResult of `DIN` under `KEY` in direction `m`. -/
def State.firstRecords (s : State) (m : Mode) (n : Nat) : Prop :=
  ∀ i : Fin 16, i.val < n → s.tr[i] = (cipherBlock m s.din s.key).trace[i]

/-- The subkey file belongs to `KEY` (41_key_schedule.md R156). -/
def State.subkeysCurrent (s : State) : Prop := s.sk = keySchedule s.key

/-- The work done so far by the command in progress is a part of KeySchedule, EncryptBlock or DecryptBlock
(43_block_cipher.md R233), and the subkey file is current whenever `SKV = 1` (41_key_schedule.md R156). -/
structure State.WorkLegal (s : State) : Prop where
  subkeys : s.skv = true → s.subkeysCurrent
  rotating : s.phase = .ksRot →
    (s.c, s.d) = halvesAfter s.key (s.rnd.toNat - 1) ∧
      ∀ i : Fin 16, i.val + 1 < s.rnd.toNat → s.sk[i] = (keySchedule s.key)[i]
  rounding : ∀ m, s.phase = .round → blockMode s.op = some m →
    (s.l, s.r) = s.blockHalves m (s.rnd.toNat - 1) ∧ s.firstRecords m (s.rnd.toNat - 1)
  finishing : ∀ m, s.phase = .fperm → blockMode s.op = some m →
    (s.l, s.r) = s.blockHalves m 16 ∧ s.firstRecords m 16

/-- The reserved indexes (20_memory.md R62). -/
abbrev reservedIndex (a : Index) : Prop :=
  (0x009 ≤ a.toNat ∧ a.toNat ≤ 0x00F) ∨ (0x020 ≤ a.toNat ∧ a.toNat ≤ 0x03F) ∨ (0x048 ≤ a.toNat ∧ a.toNat ≤ 0x0FF) ∨
    (0x100 ≤ a.toNat ∧ a.toNat ≤ 0x1FF ∧ 10 ≤ a.toNat % 16) ∨ 0x200 ≤ a.toNat

/-- The indexes whose access is read only (20_memory.md R61): STATUS, SEQ, TRV, DOUT, LR, CD, SK, the TR words. -/
abbrev readOnlyIndex (a : Index) : Prop :=
  (0x001 ≤ a.toNat ∧ a.toNat ≤ 0x003) ∨ (0x006 ≤ a.toNat ∧ a.toNat ≤ 0x008) ∨ (0x010 ≤ a.toNat ∧ a.toNat ≤ 0x01F) ∨
    (0x100 ≤ a.toNat ∧ a.toNat ≤ 0x1FF ∧ a.toNat % 16 ≤ 9)

/-- Every piece of CORE's state has the value of the reset table (10_state.md R41). -/
structure State.HasResetValues (s : State) : Prop where
  key : s.key = 0x0000000000000000#64
  din : s.din = 0x0000000000000000#64
  dout : s.dout = 0x0000000000000000#64
  halves : s.l = 0x00000000#32 ∧ s.r = 0x00000000#32
  keyHalves : s.c = 0x0000000#28 ∧ s.d = 0x0000000#28
  subkeys : ∀ i : Fin 16, s.sk[i] = 0x000000000000#48
  status : s.busy = false ∧ s.done = false ∧ s.skv = false ∧ s.keyw = false ∧ s.dinw = false ∧ s.fault = false ∧
    s.mode = .enc ∧ s.cause = .none ∧ s.status = 0x0000#16
  seq : s.phase = .idle ∧ s.rnd = 0#5 ∧ s.op = .none ∧ s.seq = 0x0000#16
  trv : s.trv = 0x0000#16
  tbuf : ∀ a, a < 64 → memGet s.tbuf a = 0x00#8
  records : ∀ i : Fin 16,
    s.tr[i].round = 0#8 ∧ s.tr[i].subkey = 0#48 ∧ s.tr[i].lBefore = 0#32 ∧ s.tr[i].rBefore = 0#32 ∧
      s.tr[i].expanded = 0#48 ∧ s.tr[i].xored = 0#48 ∧
      (∀ b : Fin 8, s.tr[i].lookup[b] = ⟨0#8, 0#6, 0#2, 0#4, 0#4⟩) ∧
      s.tr[i].spOut = 0#32 ∧ s.tr[i].lAfter = 0#32 ∧ s.tr[i].rAfter = 0#32

/-- How many sequencer steps the command in progress has left (43_block_cipher.md R231, R232). -/
def State.stepsLeft (s : State) : Nat :=
  match s.phase with
  | .idle => 0
  | .ksPc1 => if s.op = .keysched then 17 else 35
  | .ksRot => (17 - s.rnd.toNat) + (if s.op = .keysched then 0 else 18)
  | .iperm => 18
  | .round => (17 - s.rnd.toNat) + 1
  | .fperm => 1

/-- A host action that resets CORE: HostReset or the write of SRST to CMD
(70_reset_and_hazards.md R290, 44_system_commands.md R241). -/
def HostAction.resets : HostAction → Prop
  | .write a v => a = 0x000#12 ∧ v = 0x00000000000000FF#64
  | .read _ => False
  | .reset => True
  | .wait => False

end Sys2Proof.Machine
end

