-- ==== Sys2Proof/Certificates/Slice0/Obligations.lean ====
section
/-! DEFINITION. The statements for the provers, from the numbered rules of spec/. In all of them `SK[i]`, `TR[i]`, box
`b`, round `i` stand at the zero-based slot `i - 1`, `b - 1`. -/

open Sys2Proof Sys2Proof.Machine

/-! ## Encoding -/

/-- The fifteen legal bytes of the opcode map (30_encoding.md section 3) decode to their commands. -/
def Obligations.FifteenLegalBytesDecode : Prop :=
  decode 0x00#64 = .ok .nop ∧ decode 0x10#64 = .ok .keysched ∧ decode 0x20#64 = .ok .enc ∧
  decode 0x30#64 = .ok .dec ∧ decode 0x40#64 = .ok (.ldhex .key) ∧ decode 0x41#64 = .ok (.ldhex .din) ∧
  decode 0x50#64 = .ok (.ldbin .key) ∧ decode 0x51#64 = .ok (.ldbin .din) ∧ decode 0x60#64 = .ok (.sthex .key) ∧
  decode 0x61#64 = .ok (.sthex .din) ∧ decode 0x62#64 = .ok (.sthex .dout) ∧ decode 0x70#64 = .ok (.stbin .key) ∧
  decode 0x71#64 = .ok (.stbin .din) ∧ decode 0x72#64 = .ok (.stbin .dout) ∧ decode 0xFF#64 = .ok .srst

/-- R100: decoding is total; each of the fifteen bytes is its command, everything else is ILLEGAL, and ILLEGAL raises
`ILLEGAL_CMD` when CORE is ready. -/
def Obligations.DecodeFollowsTheMap : Prop :=
  ∀ v : Word64,
    (v.extractLsb' 8 56 ≠ 0#56 → ∃ e, decode v = .error e) ∧
    (v.extractLsb' 8 56 = 0#56 →
      match (v.extractLsb' 0 8).toNat with
      | 0x00 => decode v = .ok .nop
      | 0x10 => decode v = .ok .keysched
      | 0x20 => decode v = .ok .enc
      | 0x30 => decode v = .ok .dec
      | 0x40 => decode v = .ok (.ldhex .key)
      | 0x41 => decode v = .ok (.ldhex .din)
      | 0x50 => decode v = .ok (.ldbin .key)
      | 0x51 => decode v = .ok (.ldbin .din)
      | 0x60 => decode v = .ok (.sthex .key)
      | 0x61 => decode v = .ok (.sthex .din)
      | 0x62 => decode v = .ok (.sthex .dout)
      | 0x70 => decode v = .ok (.stbin .key)
      | 0x71 => decode v = .ok (.stbin .din)
      | 0x72 => decode v = .ok (.stbin .dout)
      | 0xFF => decode v = .ok .srst
      | _ => ∃ e, decode v = .error e) ∧
    (∀ (e : DecodeError) (s : State), decode v = .error e → s.ready →
      hostWrite 0x000#12 v s = .next (s.raiseFault .illegalCmd))

/-- Decode and encode agree in both directions: a value decodes to `i` exactly when `i` is well-formed and the value is
its encoding (30_encoding.md section 3). -/
def Obligations.DecodeIsTheInverseOfEncode : Prop :=
  ∀ (v : Word64) (i : Instr), decode v = .ok i ↔ (i.wellFormed = true ∧ v = encode i)

/-- R252, R95: a value that is none of the fifteen, written to CMD when CORE is ready, raises `ILLEGAL_CMD` and changes
nothing else. -/
def Obligations.ReservedCommandsFault : Prop :=
  ∀ (v : Word64) (s : State), s.ready →
    v ∉ [0x00#64, 0x10#64, 0x20#64, 0x30#64, 0x40#64, 0x41#64, 0x50#64, 0x51#64, 0x60#64, 0x61#64, 0x62#64, 0x70#64,
      0x71#64, 0x72#64, 0xFF#64] →
    hostWrite 0x000#12 v s = .next { s with
      fault := true, cause := .illegalCmd, busy := false, done := false, phase := .idle, rnd := 0#5, op := .none }

/-- A step at which the host's next action writes to CMD a value that decodes to `i`, and at which the host is the one
to move, is exec of `i`, after the action is taken off the host's script (the host side is the model's own, log
entries 1 and 3). -/
def Obligations.StepRunsTheDecodedCommand : Prop :=
  ∀ (s : State) (v : Word64) (rest : List HostAction) (i : Instr),
    s.env.script = .write 0x000#12 v :: rest → decode v = .ok i → (s.busy = false ∨ s.hostBudget ≠ 0) →
    ∃ e : HostSide, step s = exec i { s with env := e } ∧ e.script = rest ∧ e.reads = s.env.reads

/-- The command that `withFetchWord` places is what the very next step runs, in every state (log entry 2). -/
def Obligations.PlacedCommandRunsNext : Prop :=
  ∀ (s : State) (nbits w : Nat) (i : Instr), decodeTableWord nbits w = some i →
    ∃ e : HostSide, step (s.withFetchWord nbits w) = exec i { s with env := e } ∧
      e.script = s.env.script ∧ e.reads = s.env.reads

/-! ## Reset -/

/-- The state after reset has the values of the reset table (10_state.md section 8). -/
def Obligations.ResetStateHasTheResetValues : Prop := State.reset.HasResetValues

/-- R290: HostReset in any state gives every piece of state its reset value, and SRST has the same effect. -/
def Obligations.HostResetAndSoftResetAgree : Prop :=
  ∀ s : State, ∃ t : State,
    hostAct .reset s = .next t ∧ exec .srst s = .next t ∧ t.HasResetValues

/-! ## Host reads and writes -/

/-- R65: what a read returns at every index, and that it changes no state of CORE, in every state. -/
def Obligations.HostReadTable : Prop :=
  ∀ s : State,
    (∀ a, ∃ e : HostSide, hostAct (.read a) s = .next { s with env := e }) ∧
    hostRead 0x000#12 s = 0#64 ∧
    hostRead 0x001#12 s = s.status.setWidth 64 ∧
    hostRead 0x002#12 s = s.seq.setWidth 64 ∧
    hostRead 0x003#12 s = s.trv.setWidth 64 ∧
    hostRead 0x004#12 s = s.key ∧
    hostRead 0x005#12 s = s.din ∧
    hostRead 0x006#12 s = s.dout ∧
    hostRead 0x007#12 s = s.l ++ s.r ∧
    hostRead 0x008#12 s = (s.c ++ s.d).setWidth 64 ∧
    (∀ i : Fin 16, hostRead (BitVec.ofNat 12 (0x010 + i.val)) s = s.sk[i].setWidth 64) ∧
    (∀ w : Fin 8, hostRead (BitVec.ofNat 12 (0x040 + w.val)) s = memRead s.tbuf (8 * w.val) 8) ∧
    (∀ (i : Fin 16) (w : Fin 10),
      hostRead (BitVec.ofNat 12 (0x100 + 16 * i.val + w.val)) s = traceWord s.tr[i] w) ∧
    (∀ a, reservedIndex a → hostRead a s = 0#64)

/-- R62, R254: a read of a reserved index returns 0; no read faults or changes anything of CORE; a write to a reserved or
read-only index when CORE is ready raises `BAD_ADDR` and writes nothing. -/
def Obligations.ReservedAndReadOnlyIndexes : Prop :=
  (∀ (a : Index) (s : State), reservedIndex a → hostRead a s = 0#64) ∧
  (∀ (a : Index) (s : State), ∃ e : HostSide, hostAct (.read a) s = .next { s with env := e }) ∧
  (∀ (a : Index) (v : Word64) (s : State), s.ready → reservedIndex a ∨ readOnlyIndex a →
    hostWrite a v s = .next { s with
      fault := true, cause := .badAddr, busy := false, done := false, phase := .idle, rnd := 0#5, op := .none })

/-- R66: HostWrite is decided in the order SRST, recorded fault, command in progress, reserved or read-only index,
command, KEY, DIN, TBUF word. -/
def Obligations.HostWriteOrder : Prop :=
  ∀ (a : Index) (v : Word64) (s : State),
    hostWrite a v s =
      if a = 0x000#12 ∧ v = 0x00000000000000FF#64 then .next { State.reset with env := s.env }
      else if s.fault = true then .next s
      else if s.busy = true then .next (s.raiseFault .busyAccess)
      else if reservedIndex a ∨ readOnlyIndex a then .next (s.raiseFault .badAddr)
      else if a = 0x000#12 then
        (match decode v with
        | .ok i => exec i s
        | .error _ => .next (s.raiseFault .illegalCmd))
      else if a = 0x004#12 then .next { s with key := v, keyw := true, skv := false }
      else if a = 0x005#12 then .next { s with din := v, dinw := true }
      else .next { s with tbuf := memWrite s.tbuf (8 * (a.toNat - 0x040)) 8 v }

/-- R63: TBUF words are big-endian: the byte at the lowest address stands in bits `[63:56]`, for reads and for writes;
a write changes no other byte and no other state. -/
def Obligations.TbufWordsAreBigEndian : Prop :=
  (∀ (s : State) (w k : Fin 8),
    (hostRead (BitVec.ofNat 12 (0x040 + w.val)) s).extractLsb' (56 - 8 * k.val) 8 = memGet s.tbuf (8 * w.val + k.val)) ∧
  (∀ (s : State) (w : Fin 8) (v : Word64), s.ready → s.tbuf.wf →
    ∃ m : Memory, hostWrite (BitVec.ofNat 12 (0x040 + w.val)) v s = .next { s with tbuf := m } ∧
      ∀ a, memGet m a =
        if 8 * w.val ≤ a ∧ a < 8 * w.val + 8 then v.extractLsb' (56 - 8 * (a - 8 * w.val)) 8 else memGet s.tbuf a)

/-- The words STATUS and SEQ, bit by bit, with the codes of CAUSE, PHASE and OP; reserved bits read 0; the output pins
copy their flags (10_state.md sections 4 and 5, 60_exceptions.md sections 1 and 2). -/
def Obligations.StatusAndSeqLayout : Prop :=
  ∀ s : State,
    (s.status.getLsbD 0 = s.busy ∧ s.status.getLsbD 1 = s.done ∧ s.status.getLsbD 2 = s.skv ∧
      s.status.getLsbD 3 = s.keyw ∧ s.status.getLsbD 4 = s.dinw ∧ s.status.getLsbD 5 = s.fault ∧
      (s.status.getLsbD 6 = true ↔ s.mode = .dec) ∧ s.status.getLsbD 7 = false ∧
      s.status.extractLsb' 12 4 = 0#4 ∧
      (s.status.extractLsb' 8 4).toNat =
        match s.cause with
        | .none => 0 | .illegalCmd => 1 | .busyAccess => 2 | .badAddr => 3
        | .noKey => 4 | .noData => 5 | .encoding => 6 | .internal => 7) ∧
    (s.seq.extractLsb' 10 6 = 0#6 ∧ s.seq.extractLsb' 3 5 = s.rnd ∧
      (s.seq.extractLsb' 0 3).toNat =
        (match s.phase with
        | .idle => 0 | .ksPc1 => 1 | .ksRot => 2 | .iperm => 3 | .round => 4 | .fperm => 5) ∧
      (s.seq.extractLsb' 8 2).toNat =
        match s.op with
        | .none => 0 | .keysched => 1 | .enc => 2 | .dec => 3) ∧
    (s.pinBusy = s.status.getLsbD 0 ∧ s.pinDone = s.status.getLsbD 1 ∧ s.pinFault = s.status.getLsbD 5)

/-- R37, R38: the ten words of a trace record, and the packing of an SboxLookup record, as the host reads them. -/
def Obligations.TraceRecordLayout : Prop :=
  (∀ (s : State) (i : Fin 16),
    let word : Nat → Word64 := fun w => hostRead (BitVec.ofNat 12 (0x100 + 16 * i.val + w)) s
    let t := s.tr[i]
    ((word 0).extractLsb' 56 8 = t.round ∧ (word 0).extractLsb' 48 8 = 0#8 ∧ (word 0).extractLsb' 0 48 = t.subkey) ∧
    ((word 1).extractLsb' 32 32 = t.lBefore ∧ (word 1).extractLsb' 0 32 = t.rBefore) ∧
    ((word 2).extractLsb' 48 16 = 0#16 ∧ (word 2).extractLsb' 0 48 = t.expanded) ∧
    ((word 3).extractLsb' 48 16 = 0#16 ∧ (word 3).extractLsb' 0 48 = t.xored) ∧
    (∀ b : Fin 8, (word (4 + b.val / 2)).extractLsb' (32 - 32 * (b.val % 2)) 32 = packLookup t.lookup[b]) ∧
    ((word 8).extractLsb' 32 32 = t.spOut ∧ (word 8).extractLsb' 0 32 = 0#32) ∧
    ((word 9).extractLsb' 32 32 = t.lAfter ∧ (word 9).extractLsb' 0 32 = t.rAfter) ∧
    (∀ w, 10 ≤ w → w ≤ 15 → word w = 0#64)) ∧
  (∀ u : SboxLookup,
    (packLookup u).extractLsb' 24 8 = u.box ∧ (packLookup u).extractLsb' 22 2 = 0#2 ∧
    (packLookup u).extractLsb' 16 6 = u.input ∧ (packLookup u).extractLsb' 14 2 = 0#2 ∧
    (packLookup u).extractLsb' 12 2 = u.row ∧ (packLookup u).extractLsb' 8 4 = u.column ∧
    (packLookup u).extractLsb' 4 4 = 0#4 ∧ (packLookup u).extractLsb' 0 4 = u.output)

/-! ## Faults -/

/-- R262: fault entry writes FAULT, CAUSE, BUSY, DONE, SEQ and OP, and nothing else. -/
def Obligations.FaultEntryWrites : Prop :=
  ∀ (k : Cause) (s : State),
    s.raiseFault k = { s with
      fault := true, cause := k, busy := false, done := false, phase := .idle, rnd := 0#5, op := .none }

/-- R253: any write but SRST while BUSY = 1 and FAULT = 0, whatever the index and the value, abandons the command by
the fault entry with `BUSY_ACCESS` and writes nothing else. -/
def Obligations.WriteWhileBusyAbandons : Prop :=
  ∀ (a : Index) (v : Word64) (s : State), s.busy = true → s.fault = false →
    ¬(a = 0x000#12 ∧ v = 0xFF#64) →
    hostWrite a v s = .next { s with
      fault := true, cause := .busyAccess, busy := false, done := false, phase := .idle, rnd := 0#5, op := .none }

/-- R261: while FAULT = 1 every write but SRST is ignored and reads work; in a legal state the sequencer takes no step,
so that a step whose action is no reset changes the host side only. -/
def Obligations.FaultedStateIsFrozen : Prop :=
  (∀ (a : Index) (v : Word64) (s : State), s.fault = true → ¬(a = 0x000#12 ∧ v = 0xFF#64) →
    hostWrite a v s = .next s) ∧
  (∀ s : State, s.ControlLegal → s.fault = true → (∀ a, s.env.script.head? = some a → ¬a.resets) →
    ∃ e : HostSide, step s = .next { s with env := e })

/-- R255, R256: KEYSCHED, ENC and DEC fault with `NO_KEY` when KEY was never written; ENC and DEC fault with `NO_DATA`
when KEY was written and DIN was not. -/
def Obligations.MissingInputsFault : Prop :=
  ∀ s : State, s.ready →
    (s.keyw = false →
      exec .keysched s = .next (s.raiseFault .noKey) ∧ exec .enc s = .next (s.raiseFault .noKey) ∧
        exec .dec s = .next (s.raiseFault .noKey)) ∧
    (s.keyw = true → s.dinw = false →
      exec .enc s = .next (s.raiseFault .noData) ∧ exec .dec s = .next (s.raiseFault .noData))

/-- FAULT and CAUSE are sticky (10_state.md section 5, 60_exceptions.md section 4): from a legal faulted state every
step either leaves CORE as it is or gives it its reset values. -/
def Obligations.OnlyResetLeavesTheFault : Prop :=
  ∀ s t : State, s.ControlLegal → s.fault = true → step s = .next t →
    (∃ e : HostSide, t = { s with env := e }) ∨ (t.HasResetValues ∧ ∃ a, s.env.script.head? = some a ∧ a.resets)

/-! ## bit_conversion_unit -/

/-- R113, R114: HexVal accepts the digits and both cases of the letters and nothing else; HexChar is total and upper
case, and HexVal undoes it. -/
def Obligations.HexDigits : Prop :=
  (∀ d : Fin 10, hexVal (BitVec.ofNat 8 (0x30 + d.val)) = some (BitVec.ofNat 4 d.val)) ∧
  (∀ d : Fin 6, hexVal (BitVec.ofNat 8 (0x41 + d.val)) = some (BitVec.ofNat 4 (10 + d.val))) ∧
  (∀ d : Fin 6, hexVal (BitVec.ofNat 8 (0x61 + d.val)) = some (BitVec.ofNat 4 (10 + d.val))) ∧
  (∀ c : Byte, ¬(0x30 ≤ c.toNat ∧ c.toNat ≤ 0x39) → ¬(0x41 ≤ c.toNat ∧ c.toNat ≤ 0x46) →
    ¬(0x61 ≤ c.toNat ∧ c.toNat ≤ 0x66) → hexVal c = none) ∧
  (∀ d : BitVec 4, d.toNat ≤ 9 → hexChar d = BitVec.ofNat 8 (0x30 + d.toNat)) ∧
  (∀ d : BitVec 4, 10 ≤ d.toNat → hexChar d = BitVec.ofNat 8 (0x41 + (d.toNat - 10))) ∧
  (∀ d : BitVec 4, hexVal (hexChar d) = some d)

/-- The round-trip laws (40_conversion.md section 1, which the spec marks as derived): the conversions between bytes,
hexadecimal text and bits are lossless, hexadecimal text up to letter case. With them, where the partial ones are defined
(the same section): exactly on the texts of the length they ask for whose characters all have a value, so that a text of
odd length has no byte form; and which two digits make byte `j`. -/
def Obligations.ConversionRoundTrips : Prop :=
  (∀ (n : Nat) (b : List Byte), b.length = n → bitsToBytes n (bytesToBits n b) = b) ∧
  (∀ (n : Nat) (v : BitVec (8 * n)), bytesToBits n (bitsToBytes n v) = v) ∧
  (∀ (m : Nat) (v : BitVec (4 * m)), hexToBits m (bitsToHex m v) = some v) ∧
  (∀ (n : Nat) (b : List Byte), b.length = n → hexToBytes n (bytesToHex n b) = some b) ∧
  (∀ (m : Nat) (v : BitVec m), binToBits m (bitsToBin m v) = some v) ∧
  (∀ (m : Nat) (t : List Byte) (v : BitVec (4 * m)), hexToBits m t = some v →
    bitsToHex m v = t.map fun c => if 0x61 ≤ c.toNat ∧ c.toNat ≤ 0x66 then c - 0x20#8 else c) ∧
  (∀ (m : Nat) (t : List Byte) (v : BitVec m), binToBits m t = some v → bitsToBin m v = t) ∧
  (∀ (m : Nat) (t : List Byte), hexToBits m t = none ↔ t.length ≠ m ∨ ∃ c ∈ t, hexVal c = none) ∧
  (∀ (m : Nat) (t : List Byte), binToBits m t = none ↔ t.length ≠ m ∨ ∃ c ∈ t, c ≠ 0x30#8 ∧ c ≠ 0x31#8) ∧
  (∀ (n : Nat) (t : List Byte), hexToBytes n t = none ↔ t.length ≠ 2 * n ∨ ∃ c ∈ t, hexVal c = none) ∧
  (∀ (n : Nat) (t : List Byte), t.length % 2 = 1 → hexToBytes n t = none) ∧
  (∀ (n : Nat) (t b : List Byte), hexToBytes n t = some b → b.length = n ∧ ∀ j, j < n →
    ∃ d e, hexVal (t.getD (2 * j) 0#8) = some d ∧ hexVal (t.getD (2 * j + 1) 0#8) = some e ∧ b.getD j 0#8 = d ++ e)

/-- R124: LDHEX loads KEY or DIN from the sixteen characters `TBUF[0..15]`, first character most significant, and
writes nothing else; any character outside the set raises `ENCODING` and leaves the register and its flags; the forms
`rsel = 10` and `11` are illegal commands. -/
def Obligations.LdhexLoadsSixteenDigits : Prop :=
  ∀ s : State, s.ready →
    (∀ ds : Fin 16 → BitVec 4, (∀ k : Fin 16, hexVal (memGet s.tbuf k.val) = some (ds k)) →
      ∃ v : Word64, (∀ k : Fin 16, v.extractLsb' (60 - 4 * k.val) 4 = ds k) ∧
        exec (.ldhex .key) s = .next { s with key := v, keyw := true, skv := false } ∧
        exec (.ldhex .din) s = .next { s with din := v, dinw := true }) ∧
    ((∃ k : Fin 16, hexVal (memGet s.tbuf k.val) = none) →
      exec (.ldhex .key) s = .next (s.raiseFault .encoding) ∧
      exec (.ldhex .din) s = .next (s.raiseFault .encoding)) ∧
    hostWrite 0x000#12 0x40#64 s = exec (.ldhex .key) s ∧ hostWrite 0x000#12 0x41#64 s = exec (.ldhex .din) s ∧
    hostWrite 0x000#12 0x42#64 s = .next (s.raiseFault .illegalCmd) ∧
    hostWrite 0x000#12 0x43#64 s = .next (s.raiseFault .illegalCmd)

/-- R126: LDBIN loads KEY or DIN from the sixty-four characters of TBUF, `TBUF[0]` being cipher position 1, and writes
nothing else; any other character raises `ENCODING` and leaves the register and its flags; the forms `rsel = 10` and
`11` are illegal commands. -/
def Obligations.LdbinLoadsSixtyFourBits : Prop :=
  ∀ s : State, s.ready →
    (∀ bs : Fin 64 → Bool, (∀ k : Fin 64, memGet s.tbuf k.val = if bs k then 0x31#8 else 0x30#8) →
      ∃ v : Word64, (∀ k : Fin 64, v.getMsbD k.val = bs k) ∧
        exec (.ldbin .key) s = .next { s with key := v, keyw := true, skv := false } ∧
        exec (.ldbin .din) s = .next { s with din := v, dinw := true }) ∧
    ((∃ k : Fin 64, memGet s.tbuf k.val ≠ 0x30#8 ∧ memGet s.tbuf k.val ≠ 0x31#8) →
      exec (.ldbin .key) s = .next (s.raiseFault .encoding) ∧
      exec (.ldbin .din) s = .next (s.raiseFault .encoding)) ∧
    hostWrite 0x000#12 0x50#64 s = exec (.ldbin .key) s ∧ hostWrite 0x000#12 0x51#64 s = exec (.ldbin .din) s ∧
    hostWrite 0x000#12 0x52#64 s = .next (s.raiseFault .illegalCmd) ∧
    hostWrite 0x000#12 0x53#64 s = .next (s.raiseFault .illegalCmd)

/-- R125: STHEX stores KEY, DIN or DOUT, whatever the flags say, as sixteen upper-case characters into `TBUF[0..15]`,
first digit at address 0, and writes no other byte and nothing else; the form `rsel = 11` is an illegal command; a load
of the same register from that text writes back its value, clearing SKV for KEY. -/
def Obligations.SthexStoresSixteenDigits : Prop :=
  ∀ s : State, s.ready → s.tbuf.wf →
    (∀ rs : DataReg, ∃ m : Memory, exec (.sthex rs) s = .next { s with tbuf := m } ∧
      ∀ a, memGet m a =
        if a < 16 then
          hexChar ((match rs with | .key => s.key | .din => s.din | .dout => s.dout).extractLsb' (60 - 4 * a) 4)
        else memGet s.tbuf a) ∧
    hostWrite 0x000#12 0x60#64 s = exec (.sthex .key) s ∧ hostWrite 0x000#12 0x61#64 s = exec (.sthex .din) s ∧
    hostWrite 0x000#12 0x62#64 s = exec (.sthex .dout) s ∧
    hostWrite 0x000#12 0x63#64 s = .next (s.raiseFault .illegalCmd) ∧
    (∀ r : DataReg, r = .key ∨ r = .din → ∃ t u, exec (.sthex r) s = .next t ∧ exec (.ldhex r) t = .next u ∧
      u.key = s.key ∧ u.din = s.din ∧ u.fault = false ∧ u.skv = if r = .key then false else s.skv)

/-- R127: STBIN stores KEY, DIN or DOUT as sixty-four characters `0` or `1` into the whole of TBUF, cipher position 1
at address 0, and writes nothing else; the form `rsel = 11` is an illegal command. -/
def Obligations.StbinStoresSixtyFourBits : Prop :=
  ∀ s : State, s.ready → s.tbuf.wf →
    (∀ rs : DataReg, ∃ m : Memory, exec (.stbin rs) s = .next { s with tbuf := m } ∧
      ∀ a, memGet m a =
        if a < 64 then
          (if (match rs with | .key => s.key | .din => s.din | .dout => s.dout).getMsbD a then 0x31#8 else 0x30#8)
        else memGet s.tbuf a) ∧
    hostWrite 0x000#12 0x70#64 s = exec (.stbin .key) s ∧ hostWrite 0x000#12 0x71#64 s = exec (.stbin .din) s ∧
    hostWrite 0x000#12 0x72#64 s = exec (.stbin .dout) s ∧
    hostWrite 0x000#12 0x73#64 s = .next (s.raiseFault .illegalCmd)

/-! ## System commands and frames -/

/-- R240: NOP makes no write; written while BUSY = 1 it raises `BUSY_ACCESS` like any write, while FAULT = 1 it is
ignored. -/
def Obligations.NopDoesNothing : Prop :=
  ∀ s : State,
    (s.ready → exec .nop s = .next s) ∧
    (s.fault = true → exec .nop s = .next s) ∧
    (s.fault = false → s.busy = true → exec .nop s = .next (s.raiseFault .busyAccess)) ∧
    hostWrite 0x000#12 0x00#64 s = exec .nop s

/-- The frame of every command, in every state, entries into a fault included: no command touches the host side; only
SRST touches `DOUT`, `L`, `R`, `C`, `D`, `SK`; only loads of KEY and SRST touch `KEY` and `KEYW`; only loads of DIN and
SRST touch `DIN` and `DINW`; only ENC, DEC and SRST touch `MODE`, `TRV`, `TR`; only STHEX, STBIN and SRST touch a byte
of TBUF, STHEX none but `TBUF[0..15]` (10_state.md section 5, 40_conversion.md section 2). And the two loads of DOUT,
which no byte encodes, raise `ILLEGAL_CMD` (the model's choice, log entry 10). -/
def Obligations.CommandFrames : Prop :=
  (∀ (i : Instr) (s t : State), s.tbuf.wf → exec i s = .next t →
    t.env = s.env ∧
    (i ≠ .srst → t.dout = s.dout ∧ t.l = s.l ∧ t.r = s.r ∧ t.c = s.c ∧ t.d = s.d ∧ t.sk = s.sk) ∧
    (i ≠ .srst → i ≠ .ldhex .key → i ≠ .ldbin .key → t.key = s.key ∧ t.keyw = s.keyw) ∧
    (i ≠ .srst → i ≠ .ldhex .din → i ≠ .ldbin .din → t.din = s.din ∧ t.dinw = s.dinw) ∧
    (i ≠ .srst → i ≠ .ldhex .key → i ≠ .ldbin .key → i ≠ .keysched → t.skv = s.skv) ∧
    (i ≠ .srst → i ≠ .enc → i ≠ .dec → t.mode = s.mode ∧ t.trv = s.trv ∧ t.tr = s.tr) ∧
    (i ≠ .srst → ∀ a, (∀ rs, i ≠ .stbin rs) → ((∃ rs, i = .sthex rs) → 16 ≤ a) → memGet t.tbuf a = memGet s.tbuf a)) ∧
  (∀ s : State, s.ready →
    exec (.ldhex .dout) s = .next (s.raiseFault .illegalCmd) ∧ exec (.ldbin .dout) s = .next (s.raiseFault .illegalCmd))

/-! ## key_schedule_generator -/

/-- R142, with R11: `C0` and `D0` hold, position by position, the key positions that the first 28 and the last 28
entries of `PC1` name; the example the rule gives. -/
def Obligations.Pc1SelectsTheKeyHalves : Prop :=
  (∀ (k : Word64) (j : Fin 28),
    (pc1Halves k).1.getMsbD j.val = k.getMsbD (pc1Table[j.val] - 1) ∧
    (pc1Halves k).2.getMsbD j.val = k.getMsbD (pc1Table[28 + j.val] - 1)) ∧
  pc1Halves 0x133457799BBCDFF1#64 = (0xF0CCAAF#28, 0x556678F#28)

/-- R145: each half is rotated by itself by the amount of the round, towards the most significant end, and the rotations
accumulate: `C_i` is `C0` rotated by `SHIFT[1] + ... + SHIFT[i]`, and so is `D_i`; the examples the rule gives. -/
def Obligations.RotationsAccumulate : Prop :=
  (∀ (k : Word64) (i : Fin 16), halvesAfter k (i.val + 1) =
    (rotl28 (halvesAfter k i.val).1 shiftTable[i], rotl28 (halvesAfter k i.val).2 shiftTable[i])) ∧
  (∀ (k : Word64) (i : Nat), i ≤ 16 → ∀ j : Fin 28,
    (halvesAfter k i).1.getMsbD j.val =
      (pc1Halves k).1.getMsbD ((j.val + (shiftTable.toList.take i).sum) % 28) ∧
    (halvesAfter k i).2.getMsbD j.val =
      (pc1Halves k).2.getMsbD ((j.val + (shiftTable.toList.take i).sum) % 28)) ∧
  rotateHalves 0 (0xF0CCAAF#28, 0x556678F#28) = (0xE19955F#28, 0xAACCF1E#28) ∧
  rotl28 0xC332ABF#28 shiftTable[2] = 0x0CCAAFF#28

/-- R147: subkey `i` selects, position by position, the positions of `C_i ‖ D_i` that `PC2` names; the example the rule gives. -/
def Obligations.Pc2SelectsTheSubkeys : Prop :=
  (∀ (k : Word64) (i : Fin 16) (j : Fin 48),
    (keySchedule k)[i].getMsbD j.val =
      ((halvesAfter k (i.val + 1)).1 ++ (halvesAfter k (i.val + 1)).2).getMsbD (pc2Table[j.val] - 1)) ∧
  pc2Subkey (0xE19955F#28, 0xAACCF1E#28) = 0x1B02EFFC7072#48

/-- R143: two keys that differ only in the parity bits, positions 8, 16, ..., 64, give identical subkeys, hence
identical outputs and traces. -/
def Obligations.ParityBitsHaveNoEffect : Prop :=
  ∀ k k' : Word64, k &&& 0xFEFEFEFEFEFEFEFE#64 = k' &&& 0xFEFEFEFEFEFEFEFE#64 →
    keySchedule k = keySchedule k' ∧ ∀ (m : Mode) (b : Word64), cipherBlock m b k = cipherBlock m b k'

/-- R152: the step KS_PC1. -/
def Obligations.KsPc1Step : Prop :=
  ∀ s : State, s.phase = .ksPc1 →
    phaseStep s = .next { s with
      c := (permute pc1Table s.key).extractLsb' 28 28, d := (permute pc1Table s.key).extractLsb' 0 28
      phase := .ksRot, rnd := 1#5 }

/-- R153: the step KS_ROT, for every RND from 1 to 16 and both ends. -/
def Obligations.KsRotStep : Prop :=
  ∀ (s : State) (i : Fin 16), s.phase = .ksRot → s.rnd = BitVec.ofNat 5 (i.val + 1) →
    let c' := rotl28 s.c shiftTable[i]
    let d' := rotl28 s.d shiftTable[i]
    let sk' := s.sk.set i.val (permute pc2Table (c' ++ d'))
    (i.val + 1 < 16 → phaseStep s =
      .next { s with c := c', d := d', sk := sk', phase := .ksRot, rnd := BitVec.ofNat 5 (i.val + 2) }) ∧
    (i.val + 1 = 16 → s.op = .keysched → phaseStep s =
      .next { s with
        c := c', d := d', sk := sk', skv := true, phase := .idle, rnd := 0#5, op := .none, busy := false, done := true }) ∧
    (i.val + 1 = 16 → s.op ≠ .keysched → phaseStep s =
      .next { s with c := c', d := d', sk := sk', skv := true, phase := .iperm, rnd := 0#5 })

/-- The acceptance of KEYSCHED (41_key_schedule.md section 2), in every ready state whose KEY has been written. -/
def Obligations.KeyschedIsAccepted : Prop :=
  ∀ s : State, s.ready → s.keyw = true →
    exec .keysched s = .next { s with
      op := .keysched, busy := true, done := false, skv := false, phase := .ksPc1, rnd := 0#5 } ∧
    hostWrite 0x000#12 0x10#64 s = exec .keysched s

/-- R151: from acceptance, with no further host action, KEYSCHED takes 17 steps, busy before each, and ends with
`SKV = 1`, `DONE = 1`, `BUSY = 0`; `KEY`, `DIN`, `DOUT`, `L`, `R`, `TR`, `TRV`, `MODE` and TBUF are untouched; without a
written KEY it faults. That the subkey file then holds `KeySchedule(KEY)` is 41_key_schedule.md section 2 (its R150), which
the spec marks as derived. -/
def Obligations.KeyschedDerivesTheSchedule : Prop :=
  ∀ s : State, s.ready → s.env.script = [] →
    (s.keyw = false → exec .keysched s = .next (s.raiseFault .noKey)) ∧
    (s.keyw = true → ∃ a, exec .keysched s = .next a ∧ a.busy = true ∧ a.done = false ∧ a.skv = false ∧
      a.phase = .ksPc1 ∧ a.rnd = 0#5 ∧ a.op = .keysched ∧
      (∀ n, n < 17 → ∃ u, core.run n a = .next u ∧ u.busy = true) ∧
      ∃ t, core.run 17 a = .next t ∧ t.sk = keySchedule s.key ∧ t.skv = true ∧ t.done = true ∧ t.busy = false ∧
        t.phase = .idle ∧ t.rnd = 0#5 ∧ t.op = .none ∧ t.fault = false ∧ t.cause = s.cause ∧
        t.key = s.key ∧ t.keyw = s.keyw ∧ t.din = s.din ∧ t.dinw = s.dinw ∧ t.dout = s.dout ∧ t.l = s.l ∧ t.r = s.r ∧
        t.tr = s.tr ∧ t.trv = s.trv ∧ t.mode = s.mode ∧ t.tbuf = s.tbuf)

/-! ## feistel_round_engine -/

/-- R172, with R11: EXPAND selects position by position what `E` names, and is injective; the five values the rule
gives. -/
def Obligations.ExpandSelectsAndIsInjective : Prop :=
  (∀ (r : HalfBlock) (j : Fin 48), (expand r).getMsbD j.val = r.getMsbD (eTable[j.val] - 1)) ∧
  (∀ r r' : HalfBlock, expand r = expand r' → r = r') ∧
  expand 0xF0AAF0AA#32 = 0x7A15557A1555#48 ∧ expand 0x00000001#32 = 0x800000000002#48 ∧
  expand 0x80000000#32 = 0x400000000001#48 ∧ expand 0xFFFFFFFF#32 = 0xFFFFFFFFFFFF#48 ∧ expand 0#32 = 0#48

/-- R187, with R11: PPERM selects position by position what `P` names, and is bijective; the three values the rule
gives. -/
def Obligations.PpermSelectsAndIsBijective : Prop :=
  (∀ (x : HalfBlock) (j : Fin 32), (pperm x).getMsbD j.val = x.getMsbD (pTable[j.val] - 1)) ∧
  (∀ x x' : HalfBlock, pperm x = pperm x' → x = x') ∧ (∀ y : HalfBlock, ∃ x, pperm x = y) ∧
  pperm 0x5C82B597#32 = 0x234AA9BB#32 ∧ pperm 0x80000000#32 = 0x00800000#32 ∧ pperm 0x00000001#32 = 0x00000800#32

/-- R188 (with R174 to R176, R185): `F(R, K)` is `P` applied to eight nibbles, nibble `b` being the entry of box `b` at
the row `2*g[5] + g[0]` and the column `g[4:1]` of group `b` of `E(R) xor K`, box 1 most significant; and the corner
value the rule gives. -/
def Obligations.FIsTheCompositeOfItsSteps : Prop :=
  (∀ (r : HalfBlock) (k : Subkey), ∃ x : HalfBlock, feistelF r k = pperm x ∧
    ∀ b : Fin 8,
      let g := (expand r ^^^ k).extractLsb' (42 - 6 * b.val) 6
      ∃ (row : Fin 4) (column : Fin 16),
        row.val = 2 * (g.getLsbD 5).toNat + (g.getLsbD 0).toNat ∧
        column.val = (g.extractLsb' 1 4).toNat ∧
        x.extractLsb' (28 - 4 * b.val) 4 = sboxTables[b][row][column]) ∧
  feistelF 0#32 0#48 = 0xD8D8DBBC#32

/-- R189, R197 (with R196): what `RoundTransform(L, R, K, i)` returns: `L' = R`, `R' = L xor F(R, K)`, and the record's
fields, the eight lookups among them; the example the rule gives. -/
def Obligations.RoundTransformReturns : Prop :=
  (∀ (l r : HalfBlock) (k : Subkey) (i : BitVec 8),
    let t := roundTransform l r k i
    t.left = r ∧ t.right = l ^^^ feistelF r k ∧
    t.trace.round = i ∧ t.trace.subkey = k ∧ t.trace.lBefore = l ∧ t.trace.rBefore = r ∧
    t.trace.expanded = expand r ∧ t.trace.xored = expand r ^^^ k ∧
    (∀ b : Fin 8,
      let g := (expand r ^^^ k).extractLsb' (42 - 6 * b.val) 6
      let row := g.extractLsb' 5 1 ++ g.extractLsb' 0 1
      let column := g.extractLsb' 1 4
      t.trace.lookup[b] = ⟨BitVec.ofNat 8 (b.val + 1), g, row, column, sboxTables[b][row.toNat][column.toNat]⟩) ∧
    t.trace.spOut = feistelF r k ∧ t.trace.lAfter = r ∧ t.trace.rAfter = l ^^^ feistelF r k) ∧
  (roundTransform 0xCC00CCFF#32 0xF0AAF0AA#32 0x1B02EFFC7072#48 1#8).left = 0xF0AAF0AA#32 ∧
  (roundTransform 0xCC00CCFF#32 0xF0AAF0AA#32 0x1B02EFFC7072#48 1#8).right = 0xEF4A6544#32

/-! ## block_cipher_orchestrator -/

/-- R215: `IP` and `FP` are mutual inverses, as tables and as functions. -/
def Obligations.IpAndFpAreMutualInverses : Prop :=
  (∀ j : Fin 64, 1 ≤ ipTable[j] ∧ ipTable[j] ≤ 64 ∧ fpTable.toList.getD (ipTable[j] - 1) 0 = j.val + 1) ∧
  (∀ j : Fin 64, 1 ≤ fpTable[j] ∧ fpTable[j] ≤ 64 ∧ ipTable.toList.getD (fpTable[j] - 1) 0 = j.val + 1) ∧
  (∀ v : Word64, finalPermutation (initialPermutation v) = v) ∧
  (∀ v : Word64, initialPermutation (finalPermutation v) = v)

/-- R228: the step IPERM. -/
def Obligations.IpermStep : Prop :=
  ∀ s : State, s.phase = .iperm →
    phaseStep s = .next { s with
      l := (permute ipTable s.din).extractLsb' 32 32, r := (permute ipTable s.din).extractLsb' 0 32
      phase := .round, rnd := 1#5 }

/-- R229: the step ROUND, for every RND from 1 to 16 and both directions: the subkey is `SK[RND]` for ENC and
`SK[17-RND]` for DEC. -/
def Obligations.RoundStep : Prop :=
  ∀ (s : State) (i : Fin 16), s.phase = .round → s.rnd = BitVec.ofNat 5 (i.val + 1) → s.op = .enc ∨ s.op = .dec →
    let k := if s.op = .enc then s.sk[i.val] else s.sk[15 - i.val]
    let u := roundTransform s.l s.r k (BitVec.ofNat 8 (i.val + 1))
    ∃ t, phaseStep s = .next t ∧
      t = { s with
        l := u.left, r := u.right, tr := s.tr.set i.val u.trace, trv := t.trv
        phase := if i.val + 1 < 16 then .round else .fperm
        rnd := if i.val + 1 < 16 then BitVec.ofNat 5 (i.val + 2) else 0#5 } ∧
      ∀ j : Fin 16, t.trv.getLsbD j.val = if j = i then true else s.trv.getLsbD j.val

/-- R230: the step FPERM. -/
def Obligations.FpermStep : Prop :=
  ∀ s : State, s.phase = .fperm →
    phaseStep s = .next { s with
      dout := permute fpTable (s.r ++ s.l), phase := .idle, rnd := 0#5, op := .none, busy := false, done := true }

/-- The acceptance of ENC and of DEC (43_block_cipher.md section 2), in every ready state whose KEY and DIN have been
written. -/
def Obligations.BlockCommandsAreAccepted : Prop :=
  ∀ s : State, s.ready → s.keyw = true → s.dinw = true →
    exec .enc s = .next { s with
      op := .enc, mode := .enc, busy := true, done := false, trv := 0#16, tr := Vector.replicate 16 TraceRecord.zero
      phase := if s.skv then .iperm else .ksPc1, rnd := 0#5 } ∧
    exec .dec s = .next { s with
      op := .dec, mode := .dec, busy := true, done := false, trv := 0#16, tr := Vector.replicate 16 TraceRecord.zero
      phase := if s.skv then .iperm else .ksPc1, rnd := 0#5 } ∧
    hostWrite 0x000#12 0x20#64 s = exec .enc s ∧ hostWrite 0x000#12 0x30#64 s = exec .dec s

/-- What R226 and R227 say of a block command `i`: its checks, its acceptance, and that with no further host action it
takes 18 steps (SKV = 1) or 35 (SKV = 0), busy before each, and ends with the BlockResult of `DIN` under `KEY`. -/
def blockCommandRuns (i : Instr) (o : Op) (m : Mode) (result : Word64 → Word64 → BlockResult) : Prop :=
  ∀ s : State, s.ready → s.env.script = [] → (s.skv = true → s.subkeysCurrent) →
    (s.keyw = false → exec i s = .next (s.raiseFault .noKey)) ∧
    (s.keyw = true → s.dinw = false → exec i s = .next (s.raiseFault .noData)) ∧
    (s.keyw = true → s.dinw = true →
      ∃ a, exec i s = .next a ∧ a.op = o ∧ a.mode = m ∧ a.busy = true ∧ a.done = false ∧ a.trv = 0#16 ∧
        (∀ j : Fin 16, a.tr[j] = TraceRecord.zero) ∧ a.phase = (if s.skv then .iperm else .ksPc1) ∧ a.rnd = 0#5 ∧
        (∀ n, n < (if s.skv then 18 else 35) → ∃ u, core.run n a = .next u ∧ u.busy = true ∧ u.dout = s.dout) ∧
        ∃ t, core.run (if s.skv then 18 else 35) a = .next t ∧
          t.dout = (result s.din s.key).output ∧ t.tr = (result s.din s.key).trace ∧ t.sk = keySchedule s.key ∧
          t.skv = true ∧ t.trv = 0xFFFF#16 ∧ t.done = true ∧ t.busy = false ∧ t.fault = false ∧ t.cause = s.cause ∧
          t.mode = m ∧ t.phase = .idle ∧ t.rnd = 0#5 ∧ t.op = .none ∧
          t.key = s.key ∧ t.keyw = true ∧ t.din = s.din ∧ t.dinw = true ∧ t.tbuf = s.tbuf)

/-- R226: ENC, from every ready state whose subkey file is current where SKV says so. -/
def Obligations.EncRunsToTheBlockResult : Prop := blockCommandRuns .enc .enc .enc encryptBlock

/-- R227: DEC, from every ready state whose subkey file is current where SKV says so. -/
def Obligations.DecRunsToTheBlockResult : Prop := blockCommandRuns .dec .dec .dec decryptBlock

/-- The correctness contract (43_block_cipher.md section 1): decryption undoes encryption for every Block and key,
bit-exact, and (derived in the spec) encryption undoes decryption. -/
def Obligations.DecryptUndoesEncrypt : Prop :=
  ∀ p k : Word64,
    (decryptBlock (encryptBlock p k).output k).output = p ∧ (encryptBlock (decryptBlock p k).output k).output = p

/-- The invariants that tie the sixteen records together (43_block_cipher.md section 1, which the spec marks as
derived; the corrected form of 90_conflicts.md C2). -/
def Obligations.TraceRecordsChain : Prop :=
  ∀ (m : Mode) (b k : Word64),
    let t := (cipherBlock m b k).trace
    (∀ i j : Fin 16, i.val + 1 = j.val →
      t[j].lBefore = t[i].lAfter ∧ t[j].lBefore = t[i].rBefore ∧ t[j].rBefore = t[i].rAfter) ∧
    t[0].lBefore ++ t[0].rBefore = initialPermutation b ∧
    (cipherBlock m b k).output = finalPermutation (t[15].rAfter ++ t[15].lAfter) ∧
    ∀ i : Fin 16, t[i].round = BitVec.ofNat 8 (i.val + 1) ∧
      t[i].subkey = (match m with | .enc => (keySchedule k)[i.val] | .dec => (keySchedule k)[15 - i.val])

/-! ## Invariants and whole-machine rules -/

/-- Every step keeps the control state legal: SEQ agrees with BUSY (10_state.md section 4), the flags agree with each
other, CAUSE is never INTERNAL (60_exceptions.md section 1). -/
def Obligations.StepKeepsControlLegal : Prop :=
  ∀ s t : State, s.ControlLegal → step s = .next t → t.ControlLegal

/-- Every step keeps the text buffer in its canonical form: addresses rising and below 64, no cell equal to the reset
contents (log entry 8). -/
def Obligations.StepKeepsMemoryCanonical : Prop :=
  ∀ s t : State, s.tbuf.wf → step s = .next t → t.tbuf.wf

/-- The invariants below hold at reset, whatever the host is about to do. -/
def Obligations.ResetMeetsTheInvariants : Prop :=
  ∀ e : HostSide, let s : State := { State.reset with env := e }
    s.ControlLegal ∧ s.tbuf.wf ∧ s.TraceLegal ∧ s.WorkLegal

/-- Every step keeps the trace memory legal: a record not marked in TRV is zero, a marked one is the record of the
round of its number, and TRV follows the phase (10_state.md section 6). -/
def Obligations.StepKeepsTraceLegal : Prop :=
  ∀ s t : State, s.ControlLegal → s.TraceLegal → step s = .next t → t.TraceLegal

/-- Every step, under every interleaving with the host, keeps the partial results of the command in progress equal to
those of KeySchedule, EncryptBlock and DecryptBlock, and the subkey file current while SKV = 1 (43_block_cipher.md
section 3, 41_key_schedule.md section 1). -/
def Obligations.StepKeepsWorkLegal : Prop :=
  ∀ s t : State, s.ControlLegal → s.WorkLegal → step s = .next t → t.WorkLegal

/-- R156: in every reachable state with `SKV = 1` the subkey file is the schedule of the present KEY, whatever the host
does and however its actions interleave with the steps. -/
def Obligations.ReachableSubkeysAreCurrent : Prop :=
  ∀ (e : HostSide) (n : Nat) (t : State), core.run n ({ State.reset with env := e } : State) = .next t →
    t.skv = true → ∀ i : Fin 16, t.sk[i] = (keySchedule t.key)[i]

/-- In every legal state whose step is FPERM, that step writes the output Block of EncryptBlock or DecryptBlock, and the
trace memory holds its sixteen records (43_block_cipher.md sections 2 and 3). -/
def Obligations.FinishingStepWritesTheBlockResult : Prop :=
  ∀ (s : State) (m : Mode), s.WorkLegal → s.phase = .fperm → blockMode s.op = some m →
    ∃ t, phaseStep s = .next t ∧ t.dout = (cipherBlock m s.din s.key).output ∧
      t.tr = (cipherBlock m s.din s.key).trace ∧ t.done = true ∧ t.busy = false

/-- Every step of a legal machine answers a next state: there is no state with BUSY = 1 and no step, and no host action
stops the machine (70_reset_and_hazards.md section 4). -/
def Obligations.LegalMachineNeverStops : Prop := ∀ s : State, s.ControlLegal → ∃ t, step s = .next t

/-- The step counts (43_block_cipher.md section 4, which the spec marks as derived): acceptance leaves 17, 18 or 35
steps, each sequencer step leaves one fewer, and none is left exactly when BUSY = 0. -/
def Obligations.StepCounts : Prop :=
  (∀ s a : State, s.ready → s.keyw = true → exec .keysched s = .next a → a.stepsLeft = 17) ∧
  (∀ (s a : State) (i : Instr), i = .enc ∨ i = .dec → s.ready → s.keyw = true → s.dinw = true →
    exec i s = .next a → a.stepsLeft = if s.skv then 18 else 35) ∧
  (∀ s t : State, s.ControlLegal → phaseStep s = .next t → t.stepsLeft + 1 = s.stepsLeft) ∧
  (∀ s : State, s.ControlLegal → (s.stepsLeft = 0 ↔ s.busy = false))

/-- Progress (70_reset_and_hazards.md section 4): a command in progress ends, with DONE = 1 and no fault, after exactly
the steps it has left, when the host does nothing. -/
def Obligations.CommandsEnd : Prop :=
  ∀ s : State, s.ControlLegal → s.busy = true → s.env.script = [] →
    ∃ t, core.run s.stepsLeft s = .next t ∧ t.busy = false ∧ t.done = true ∧ t.fault = false ∧ t.phase = .idle

/-- Why the interleaving changes no result (20_memory.md section 4): a sequencer step neither reads nor writes the host
side, and a read or a poll changes the host side only. So the two commute up to the host side; what a read returns is the
state between the two steps it falls between, and moves with it. -/
def Obligations.ReadsAndStepsCommute : Prop :=
  (∀ (s t : State) (e : HostSide), phaseStep s = .next t →
    t.env = s.env ∧ phaseStep { s with env := e } = .next { t with env := e }) ∧
  (∀ (s t : State) (a : HostAction), (∃ i, a = .read i) ∨ a = .wait → hostAct a s = .next t →
    ∃ e : HostSide, t = { s with env := e })

/-- Who writes KEY, DIN and DOUT (10_state.md section 2): in a legal machine, a step that changes KEY or DIN is a host
action in a state with BUSY = 0, and one that changes DOUT is the FPERM step or a reset. -/
def Obligations.WhoWritesTheDataRegisters : Prop :=
  ∀ s t : State, s.ControlLegal → step s = .next t →
    (t.key ≠ s.key ∨ t.din ≠ s.din → s.busy = false ∨ t.HasResetValues) ∧
    (t.dout ≠ s.dout → (s.busy = true ∧ s.phase = .fperm) ∨ t.HasResetValues)
end

