-- ==== Sys2Proof/Laws/Bits.lean ====
section
/-! SUPPORT. What bit selection and the conversions of the bit_conversion_unit do, bit by bit. -/

namespace Sys2Proof.Machine

/-- Permute by position (00_scope.md R11), zero-based: bit `j` from the most significant end. -/
theorem getMsbD_permute {w n : Nat} (t : Vector Nat n) (v : BitVec w) (j : Nat) (h : j < n) :
    (permute t v).getMsbD j = v.getMsbD (t[j] - 1) := by
  simp [permute, BitVec.getMsbD_ofFnBE, h, bitAt]

/-- Permute by position (00_scope.md R11): `o<j> = v<T[j]>`. -/
theorem bitAt_permute {w n : Nat} (t : Vector Nat n) (v : BitVec w) (j : Nat) (h1 : 1 ≤ j) (h2 : j ≤ n) :
    bitAt (permute t v) j = bitAt v (t[j - 1]'(by omega)) := by
  simp only [bitAt]
  exact getMsbD_permute t v (j - 1) (by omega)

/-- Permute carries exclusive or through (each output bit copies one input bit). -/
theorem permute_xor {w n : Nat} (t : Vector Nat n) (u v : BitVec w) :
    permute t (u ^^^ v) = permute t u ^^^ permute t v := by
  apply BitVec.eq_of_getMsbD_eq
  intro j hj
  simp [getMsbD_permute, hj]

theorem charValues_length {α : Type} (f : Byte → Option α) (t : List Byte) (ds : List α)
    (h : charValues f t = some ds) : ds.length = t.length := by
  induction t generalizing ds with
  | nil => simp [charValues] at h; simp [← h]
  | cons c t ih =>
    simp only [charValues] at h
    split at h
    · rename_i d ds' _ h2
      cases h
      simp [ih ds' h2]
    · cases h

/-- A text has a value exactly when each of its characters has one. -/
theorem charValues_eq_some {α : Type} (f : Byte → Option α) (t : List Byte) (ds : List α) :
    charValues f t = some ds ↔ t.map f = ds.map some := by
  induction t generalizing ds with
  | nil => cases ds <;> simp [charValues]
  | cons c t ih =>
    cases ds with
    | nil => simp only [charValues]; split <;> simp
    | cons d ds =>
      simp only [charValues, List.map_cons, List.cons.injEq]
      rw [← ih ds]
      split
      · rename_i e es h1 h2
        simp [h1, h2]
      · rename_i hno
        constructor
        · intro h; cases h
        · rintro ⟨h1, h2⟩
          exact absurd h2 (hno d ds h1)

/-- A text has no value exactly when one of its characters has none. -/
theorem charValues_eq_none {α : Type} (f : Byte → Option α) (t : List Byte) :
    charValues f t = none ↔ ∃ c ∈ t, f c = none := by
  induction t with
  | nil => simp [charValues]
  | cons c t ih =>
    simp only [charValues, List.exists_mem_cons_iff]
    rw [← ih]
    split
    · rename_i d ds h1 h2
      simp [h1, h2]
    · rename_i hno
      simp only [true_iff]
      rcases hc : f c with _ | d
      · exact .inl rfl
      · rcases ht : charValues f t with _ | ds
        · exact .inr rfl
        · exact absurd ht (hno d ds hc)

/-- A text of the length asked for has the values of its characters. -/
@[simp] theorem textValues_of_length {α : Type} {m : Nat} (f : Byte → Option α) {t : List Byte} (h : t.length = m) :
    textValues m f t = charValues f t := by simp [textValues, h]

/-- A text has values exactly when it has the length asked for and each of its characters has that value. -/
theorem textValues_eq_some {α : Type} (m : Nat) (f : Byte → Option α) (t : List Byte) (ds : List α) :
    textValues m f t = some ds ↔ t.length = m ∧ t.map f = ds.map some := by
  simp [textValues, charValues_eq_some]

/-- A text has no values exactly when its length is another or one of its characters has none. -/
theorem textValues_eq_none {α : Type} (m : Nat) (f : Byte → Option α) (t : List Byte) :
    textValues m f t = none ↔ t.length ≠ m ∨ ∃ c ∈ t, f c = none := by
  rw [← charValues_eq_none, textValues]
  split <;> simp_all

/-- HexToBits is undefined exactly on texts of another length and on texts with a character that is no digit
(40_conversion.md R115). -/
theorem hexToBits_eq_none (m : Nat) (t : List Byte) :
    hexToBits m t = none ↔ t.length ≠ m ∨ ∃ c ∈ t, hexVal c = none := by
  rw [hexToBits, Option.map_eq_none_iff, textValues_eq_none]

/-- BinToBits is undefined exactly on texts of another length and on texts with a character other than the two
(40_conversion.md R117). -/
theorem binToBits_eq_none (m : Nat) (t : List Byte) :
    binToBits m t = none ↔ t.length ≠ m ∨ ∃ c ∈ t, binVal c = none := by
  rw [binToBits, Option.map_eq_none_iff, textValues_eq_none]

/-- HexToBytes is undefined exactly where HexToBits of `2n` characters is (40_conversion.md R115). -/
theorem hexToBytes_eq_none (n : Nat) (t : List Byte) :
    hexToBytes n t = none ↔ t.length ≠ 2 * n ∨ ∃ c ∈ t, hexVal c = none := by
  rw [hexToBytes, Option.map_eq_none_iff, hexToBits_eq_none]

/-- `rotl28` moves every bit `n` positions towards the most significant end, round the half (00_scope.md R10). -/
theorem getMsbD_rotl28 (x : KeyHalf) (n j : Nat) (hn : n < 28) (hj : j < 28) :
    (rotl28 x n).getMsbD j = x.getMsbD ((j + n) % 28) := by
  simp only [rotl28, BitVec.getMsbD_or, BitVec.getMsbD_shiftLeft, BitVec.getMsbD_ushiftRight]
  by_cases h : j + n < 28
  · rw [Nat.mod_eq_of_lt h]
    simp [hj]
    omega
  · rw [show (j + n) % 28 = j - (28 - n) by omega]
    simp [hj, BitVec.getMsbD_of_ge x (j + n) (by omega)]
    intro
    omega

/-- Two tables that name each other's positions undo each other. -/
theorem permute_permute {w : Nat} (t u : Vector Nat w)
    (h : ∀ j : Fin w, t[j] - 1 < w ∧ u.toList.getD (t[j] - 1) 0 - 1 = j.val) (v : BitVec w) :
    permute t (permute u v) = v := by
  apply BitVec.eq_of_getMsbD_eq
  intro j hj
  have hp := h ⟨j, hj⟩
  rw [Fin.getElem_fin] at hp
  rw [getMsbD_permute _ _ _ hj, getMsbD_permute _ _ _ hp.1]
  congr 1
  simpa [List.getD, hp.1] using hp.2

/-- The more significant part of a concatenation. -/
theorem extract_append_high {m n : Nat} (x : BitVec m) (y : BitVec n) : (x ++ y).extractLsb' n m = x := by
  apply BitVec.eq_of_getLsbD_eq
  intro i hi
  simp [BitVec.getLsbD_append, hi]

/-- The less significant part of a concatenation. -/
theorem extract_append_low {m n : Nat} (x : BitVec m) (y : BitVec n) : (x ++ y).extractLsb' 0 n = y := by
  apply BitVec.eq_of_getLsbD_eq
  intro i hi
  simp [BitVec.getLsbD_append, hi]

/-- A nibble above the lowest one of a concatenation with a nibble. -/
theorem extract_append_nibble {m : Nat} (x : BitVec m) (y : BitVec 4) (k : Nat) :
    (x ++ y).extractLsb' (k + 4) 4 = x.extractLsb' k 4 := by
  apply BitVec.eq_of_getLsbD_eq
  intro i hi
  simp [BitVec.getLsbD_append, hi, show ¬k + 4 + i < 4 by omega, show k + 4 + i - 4 = k + i by omega]

end Sys2Proof.Machine
end

