-- ==== Sys2Proof/Laws/Memory.lean ====
section
/-! SUPPORT. The text buffer: reading after writing, and the canonical form kept by every memory operation. -/

namespace Sys2Proof.Machine

@[simp] theorem memGet_nil (a : Nat) : memGet [] a = unlistedByte := rfl

theorem memGet_memCons (a x : Nat) (v : Byte) (m : Memory) (h : ∀ p ∈ m, a < p.1) :
    memGet (memCons a v m) x = if x = a then v else memGet m x := by
  have off : ∀ n : Memory, (∀ p ∈ n, a < p.1) → memGet n a = unlistedByte := by
    intro n
    induction n with
    | nil => intro _; rfl
    | cons p n ih =>
      intro hn
      have hp := hn p (by simp)
      have hne : p.1 ≠ a := by omega
      simp only [memGet, if_neg hne]
      exact ih fun q hq => hn q (by simp [hq])
  unfold memCons
  by_cases hv : v = unlistedByte
  · by_cases hx : x = a
    · subst hx; simp [hv, off m h]
    · simp [hv, hx]
  · by_cases hx : x = a
    · subst hx; simp [hv, memGet]
    · have : ¬a = x := fun e => hx e.symm
      simp [hv, hx, memGet, this]

/-- A byte read after a write (10_state.md R33): the written byte at its address, every other byte as before. -/
theorem memGet_memSet (m : Memory) (a x : Nat) (v : Byte) (h : m.wf) :
    memGet (memSet m a v) x = if x = a then v else memGet m x := by
  induction m with
  | nil => exact memGet_memCons a x v [] (by simp)
  | cons p m ih =>
    obtain ⟨hs, hb⟩ := h
    rw [List.pairwise_cons] at hs
    have hm : Memory.wf m := ⟨hs.2, fun q hq => hb q (by simp [hq])⟩
    unfold memSet
    split
    · rename_i hlt
      refine memGet_memCons a x v (p :: m) ?_
      intro q hq
      rcases List.mem_cons.mp hq with rfl | hq
      · exact hlt
      · exact Nat.lt_trans hlt (hs.1 q hq)
    · split
      · rename_i hlt heq
        rw [memGet_memCons a x v m (fun q hq => heq ▸ hs.1 q hq)]
        by_cases hx : x = a
        · simp [hx]
        · have : ¬p.1 = x := by omega
          simp [hx, memGet, this]
      · rename_i hlt hne
        by_cases hx : p.1 = x
        · have : ¬x = a := by omega
          simp [memGet, hx, this]
        · simp [memGet, hx, ih hm]

theorem memCons_wf (a : Nat) (v : Byte) (m : Memory) (h : m.wf) (ha : a < tbufBytes) (hlt : ∀ p ∈ m, a < p.1) :
    (memCons a v m).wf := by
  unfold memCons
  split
  · exact h
  · rename_i hv
    refine ⟨List.pairwise_cons.mpr ⟨fun p hp => hlt p hp, h.1⟩, ?_⟩
    intro p hp
    rcases List.mem_cons.mp hp with rfl | hp
    · exact ⟨ha, hv⟩
    · exact h.2 p hp

theorem memSet_mem (m : Memory) (a : Nat) (v : Byte) (p : Host.Cell) (h : p ∈ memSet m a v) :
    p.1 = a ∨ p ∈ m := by
  have cons : ∀ n : Memory, p ∈ memCons a v n → p.1 = a ∨ p ∈ n := by
    intro n hn
    unfold memCons at hn
    split at hn
    · exact .inr hn
    · rcases List.mem_cons.mp hn with rfl | hn
      · exact .inl rfl
      · exact .inr hn
  induction m with
  | nil => exact cons [] h
  | cons q m ih =>
    unfold memSet at h
    split at h
    · exact cons _ h
    · split at h
      · rcases cons m h with h | h
        · exact .inl h
        · exact .inr (by simp [h])
      · rcases List.mem_cons.mp h with rfl | h
        · exact .inr (by simp)
        · rcases ih h with h | h
          · exact .inl h
          · exact .inr (by simp [h])

/-- A write inside the buffer keeps the canonical form. -/
theorem memSet_wf (m : Memory) (a : Nat) (v : Byte) (h : m.wf) (ha : a < tbufBytes) : (memSet m a v).wf := by
  induction m with
  | nil => exact memCons_wf a v [] h ha (by simp)
  | cons q m ih =>
    obtain ⟨hs, hb⟩ := h
    have hs' := List.pairwise_cons.mp hs
    have hm : Memory.wf m := ⟨hs'.2, fun r hr => hb r (by simp [hr])⟩
    unfold memSet
    split
    · rename_i hlt
      refine memCons_wf a v (q :: m) ⟨hs, hb⟩ ha ?_
      intro r hr
      rcases List.mem_cons.mp hr with rfl | hr
      · exact hlt
      · exact Nat.lt_trans hlt (hs'.1 r hr)
    · split
      · rename_i hlt heq
        exact memCons_wf a v m hm ha fun r hr => heq ▸ hs'.1 r hr
      · rename_i hlt hne
        have hw := ih hm
        refine ⟨List.pairwise_cons.mpr ⟨?_, hw.1⟩, ?_⟩
        · intro r hr
          rcases memSet_mem m a v r hr with e | hr
          · omega
          · exact hs'.1 r hr
        · intro r hr
          rcases List.mem_cons.mp hr with rfl | hr
          · exact hb r (by simp)
          · exact hw.2 r hr

/-- A run of bytes written inside the buffer keeps the canonical form. -/
theorem memPut_wf (m : Memory) (a : Nat) (bs : List Byte) (h : m.wf) (ha : a + bs.length ≤ tbufBytes) :
    (memPut m a bs).wf := by
  induction bs generalizing m a with
  | nil => exact h
  | cons b bs ih =>
    simp only [List.length_cons] at ha
    exact ih (memSet m a b) (a + 1) (memSet_wf m a b h (by omega)) (by omega)

/-- A byte read after a run of bytes is written: the written byte inside the run, every other byte as before. -/
theorem memGet_memPut (m : Memory) (a x : Nat) (bs : List Byte) (h : m.wf) (ha : a + bs.length ≤ tbufBytes) :
    memGet (memPut m a bs) x = if a ≤ x ∧ x < a + bs.length then bs.getD (x - a) 0#8 else memGet m x := by
  induction bs generalizing m a with
  | nil => simp [memPut]
  | cons b bs ih =>
    simp only [List.length_cons] at ha
    have hw := memSet_wf m a b h (by omega)
    rw [memPut, ih (memSet m a b) (a + 1) hw (by omega), memGet_memSet m a x b h]
    by_cases h1 : x = a
    · subst h1
      simp
    · by_cases h2 : a + 1 ≤ x ∧ x < a + 1 + bs.length
      · have h3 : a ≤ x ∧ x < a + (bs.length + 1) := by omega
        have h4 : x - a = x - (a + 1) + 1 := by omega
        simp [h2, h3, h4]
      · have h3 : ¬(a ≤ x ∧ x < a + (bs.length + 1)) := by omega
        rw [if_neg h2, if_neg h1, if_neg (by simpa using h3)]

@[simp] theorem bitsToBytes_length (n : Nat) (v : BitVec (8 * n)) : (bitsToBytes n v).length = n := by
  simp [bitsToBytes]

@[simp] theorem bitsToHex_length (m : Nat) (v : BitVec (4 * m)) : (bitsToHex m v).length = m := by
  simp [bitsToHex]

@[simp] theorem bitsToBin_length (m : Nat) (v : BitVec m) : (bitsToBin m v).length = m := by
  simp [bitsToBin]

@[simp] theorem memBytes_length (m : Memory) (a n : Nat) : (memBytes m a n).length = n := by
  simp [memBytes]

/-- MemWrite inside the buffer keeps the canonical form (00_scope.md R12). -/
theorem memWrite_wf (m : Memory) (a n : Nat) (v : BitVec (8 * n)) (h : m.wf) (ha : a + n ≤ tbufBytes) :
    (memWrite m a n v).wf :=
  memPut_wf m a _ h (by simpa using ha)

/-- The memory of `State.reset` is canonical. -/
theorem reset_tbuf_wf : State.reset.tbuf.wf := by simp [State.reset, Memory.wf]

end Sys2Proof.Machine
end

