-- ==== Sys2Proof/Laws/State.lean ====
section
/-! SUPPORT. One lemma per field per named update of State, true by rfl, so that no proof unfolds a record update. -/

namespace Sys2Proof.Machine

/-! ### raiseFault -/

@[simp] theorem State.raiseFault_key (k : Cause) (s : State) : (s.raiseFault k).key = s.key := rfl
@[simp] theorem State.raiseFault_din (k : Cause) (s : State) : (s.raiseFault k).din = s.din := rfl
@[simp] theorem State.raiseFault_dout (k : Cause) (s : State) : (s.raiseFault k).dout = s.dout := rfl
@[simp] theorem State.raiseFault_l (k : Cause) (s : State) : (s.raiseFault k).l = s.l := rfl
@[simp] theorem State.raiseFault_r (k : Cause) (s : State) : (s.raiseFault k).r = s.r := rfl
@[simp] theorem State.raiseFault_c (k : Cause) (s : State) : (s.raiseFault k).c = s.c := rfl
@[simp] theorem State.raiseFault_d (k : Cause) (s : State) : (s.raiseFault k).d = s.d := rfl
@[simp] theorem State.raiseFault_sk (k : Cause) (s : State) : (s.raiseFault k).sk = s.sk := rfl
@[simp] theorem State.raiseFault_busy (k : Cause) (s : State) : (s.raiseFault k).busy = false := rfl
@[simp] theorem State.raiseFault_done (k : Cause) (s : State) : (s.raiseFault k).done = false := rfl
@[simp] theorem State.raiseFault_skv (k : Cause) (s : State) : (s.raiseFault k).skv = s.skv := rfl
@[simp] theorem State.raiseFault_keyw (k : Cause) (s : State) : (s.raiseFault k).keyw = s.keyw := rfl
@[simp] theorem State.raiseFault_dinw (k : Cause) (s : State) : (s.raiseFault k).dinw = s.dinw := rfl
@[simp] theorem State.raiseFault_fault (k : Cause) (s : State) : (s.raiseFault k).fault = true := rfl
@[simp] theorem State.raiseFault_mode (k : Cause) (s : State) : (s.raiseFault k).mode = s.mode := rfl
@[simp] theorem State.raiseFault_cause (k : Cause) (s : State) : (s.raiseFault k).cause = k := rfl
@[simp] theorem State.raiseFault_phase (k : Cause) (s : State) : (s.raiseFault k).phase = .idle := rfl
@[simp] theorem State.raiseFault_rnd (k : Cause) (s : State) : (s.raiseFault k).rnd = 0#5 := rfl
@[simp] theorem State.raiseFault_op (k : Cause) (s : State) : (s.raiseFault k).op = .none := rfl
@[simp] theorem State.raiseFault_trv (k : Cause) (s : State) : (s.raiseFault k).trv = s.trv := rfl
@[simp] theorem State.raiseFault_tbuf (k : Cause) (s : State) : (s.raiseFault k).tbuf = s.tbuf := rfl
@[simp] theorem State.raiseFault_tr (k : Cause) (s : State) : (s.raiseFault k).tr = s.tr := rfl
@[simp] theorem State.raiseFault_env (k : Cause) (s : State) : (s.raiseFault k).env = s.env := rfl

/-! ### toReset -/

@[simp] theorem State.toReset_key (s : State) : s.toReset.key = State.reset.key := rfl
@[simp] theorem State.toReset_din (s : State) : s.toReset.din = State.reset.din := rfl
@[simp] theorem State.toReset_dout (s : State) : s.toReset.dout = State.reset.dout := rfl
@[simp] theorem State.toReset_l (s : State) : s.toReset.l = State.reset.l := rfl
@[simp] theorem State.toReset_r (s : State) : s.toReset.r = State.reset.r := rfl
@[simp] theorem State.toReset_c (s : State) : s.toReset.c = State.reset.c := rfl
@[simp] theorem State.toReset_d (s : State) : s.toReset.d = State.reset.d := rfl
@[simp] theorem State.toReset_sk (s : State) : s.toReset.sk = State.reset.sk := rfl
@[simp] theorem State.toReset_busy (s : State) : s.toReset.busy = State.reset.busy := rfl
@[simp] theorem State.toReset_done (s : State) : s.toReset.done = State.reset.done := rfl
@[simp] theorem State.toReset_skv (s : State) : s.toReset.skv = State.reset.skv := rfl
@[simp] theorem State.toReset_keyw (s : State) : s.toReset.keyw = State.reset.keyw := rfl
@[simp] theorem State.toReset_dinw (s : State) : s.toReset.dinw = State.reset.dinw := rfl
@[simp] theorem State.toReset_fault (s : State) : s.toReset.fault = State.reset.fault := rfl
@[simp] theorem State.toReset_mode (s : State) : s.toReset.mode = State.reset.mode := rfl
@[simp] theorem State.toReset_cause (s : State) : s.toReset.cause = State.reset.cause := rfl
@[simp] theorem State.toReset_phase (s : State) : s.toReset.phase = State.reset.phase := rfl
@[simp] theorem State.toReset_rnd (s : State) : s.toReset.rnd = State.reset.rnd := rfl
@[simp] theorem State.toReset_op (s : State) : s.toReset.op = State.reset.op := rfl
@[simp] theorem State.toReset_trv (s : State) : s.toReset.trv = State.reset.trv := rfl
@[simp] theorem State.toReset_tbuf (s : State) : s.toReset.tbuf = State.reset.tbuf := rfl
@[simp] theorem State.toReset_tr (s : State) : s.toReset.tr = State.reset.tr := rfl
@[simp] theorem State.toReset_env (s : State) : s.toReset.env = s.env := rfl

/-! ### setSeq -/

@[simp] theorem State.setSeq_key (p : Phase) (n : BitVec 5) (s : State) : (s.setSeq p n).key = s.key := rfl
@[simp] theorem State.setSeq_din (p : Phase) (n : BitVec 5) (s : State) : (s.setSeq p n).din = s.din := rfl
@[simp] theorem State.setSeq_dout (p : Phase) (n : BitVec 5) (s : State) : (s.setSeq p n).dout = s.dout := rfl
@[simp] theorem State.setSeq_l (p : Phase) (n : BitVec 5) (s : State) : (s.setSeq p n).l = s.l := rfl
@[simp] theorem State.setSeq_r (p : Phase) (n : BitVec 5) (s : State) : (s.setSeq p n).r = s.r := rfl
@[simp] theorem State.setSeq_c (p : Phase) (n : BitVec 5) (s : State) : (s.setSeq p n).c = s.c := rfl
@[simp] theorem State.setSeq_d (p : Phase) (n : BitVec 5) (s : State) : (s.setSeq p n).d = s.d := rfl
@[simp] theorem State.setSeq_sk (p : Phase) (n : BitVec 5) (s : State) : (s.setSeq p n).sk = s.sk := rfl
@[simp] theorem State.setSeq_busy (p : Phase) (n : BitVec 5) (s : State) : (s.setSeq p n).busy = s.busy := rfl
@[simp] theorem State.setSeq_done (p : Phase) (n : BitVec 5) (s : State) : (s.setSeq p n).done = s.done := rfl
@[simp] theorem State.setSeq_skv (p : Phase) (n : BitVec 5) (s : State) : (s.setSeq p n).skv = s.skv := rfl
@[simp] theorem State.setSeq_keyw (p : Phase) (n : BitVec 5) (s : State) : (s.setSeq p n).keyw = s.keyw := rfl
@[simp] theorem State.setSeq_dinw (p : Phase) (n : BitVec 5) (s : State) : (s.setSeq p n).dinw = s.dinw := rfl
@[simp] theorem State.setSeq_fault (p : Phase) (n : BitVec 5) (s : State) : (s.setSeq p n).fault = s.fault := rfl
@[simp] theorem State.setSeq_mode (p : Phase) (n : BitVec 5) (s : State) : (s.setSeq p n).mode = s.mode := rfl
@[simp] theorem State.setSeq_cause (p : Phase) (n : BitVec 5) (s : State) : (s.setSeq p n).cause = s.cause := rfl
@[simp] theorem State.setSeq_phase (p : Phase) (n : BitVec 5) (s : State) : (s.setSeq p n).phase = p := rfl
@[simp] theorem State.setSeq_rnd (p : Phase) (n : BitVec 5) (s : State) : (s.setSeq p n).rnd = n := rfl
@[simp] theorem State.setSeq_op (p : Phase) (n : BitVec 5) (s : State) : (s.setSeq p n).op = s.op := rfl
@[simp] theorem State.setSeq_trv (p : Phase) (n : BitVec 5) (s : State) : (s.setSeq p n).trv = s.trv := rfl
@[simp] theorem State.setSeq_tbuf (p : Phase) (n : BitVec 5) (s : State) : (s.setSeq p n).tbuf = s.tbuf := rfl
@[simp] theorem State.setSeq_tr (p : Phase) (n : BitVec 5) (s : State) : (s.setSeq p n).tr = s.tr := rfl
@[simp] theorem State.setSeq_env (p : Phase) (n : BitVec 5) (s : State) : (s.setSeq p n).env = s.env := rfl

/-! ### beginCommand -/

@[simp] theorem State.beginCommand_key (o : Op) (p : Phase) (s : State) : (s.beginCommand o p).key = s.key := rfl
@[simp] theorem State.beginCommand_din (o : Op) (p : Phase) (s : State) : (s.beginCommand o p).din = s.din := rfl
@[simp] theorem State.beginCommand_dout (o : Op) (p : Phase) (s : State) : (s.beginCommand o p).dout = s.dout := rfl
@[simp] theorem State.beginCommand_l (o : Op) (p : Phase) (s : State) : (s.beginCommand o p).l = s.l := rfl
@[simp] theorem State.beginCommand_r (o : Op) (p : Phase) (s : State) : (s.beginCommand o p).r = s.r := rfl
@[simp] theorem State.beginCommand_c (o : Op) (p : Phase) (s : State) : (s.beginCommand o p).c = s.c := rfl
@[simp] theorem State.beginCommand_d (o : Op) (p : Phase) (s : State) : (s.beginCommand o p).d = s.d := rfl
@[simp] theorem State.beginCommand_sk (o : Op) (p : Phase) (s : State) : (s.beginCommand o p).sk = s.sk := rfl
@[simp] theorem State.beginCommand_busy (o : Op) (p : Phase) (s : State) : (s.beginCommand o p).busy = true := rfl
@[simp] theorem State.beginCommand_done (o : Op) (p : Phase) (s : State) : (s.beginCommand o p).done = false := rfl
@[simp] theorem State.beginCommand_skv (o : Op) (p : Phase) (s : State) : (s.beginCommand o p).skv = s.skv := rfl
@[simp] theorem State.beginCommand_keyw (o : Op) (p : Phase) (s : State) : (s.beginCommand o p).keyw = s.keyw := rfl
@[simp] theorem State.beginCommand_dinw (o : Op) (p : Phase) (s : State) : (s.beginCommand o p).dinw = s.dinw := rfl
@[simp] theorem State.beginCommand_fault (o : Op) (p : Phase) (s : State) : (s.beginCommand o p).fault = s.fault := rfl
@[simp] theorem State.beginCommand_mode (o : Op) (p : Phase) (s : State) : (s.beginCommand o p).mode = s.mode := rfl
@[simp] theorem State.beginCommand_cause (o : Op) (p : Phase) (s : State) : (s.beginCommand o p).cause = s.cause := rfl
@[simp] theorem State.beginCommand_phase (o : Op) (p : Phase) (s : State) : (s.beginCommand o p).phase = p := rfl
@[simp] theorem State.beginCommand_rnd (o : Op) (p : Phase) (s : State) : (s.beginCommand o p).rnd = 0#5 := rfl
@[simp] theorem State.beginCommand_op (o : Op) (p : Phase) (s : State) : (s.beginCommand o p).op = o := rfl
@[simp] theorem State.beginCommand_trv (o : Op) (p : Phase) (s : State) : (s.beginCommand o p).trv = s.trv := rfl
@[simp] theorem State.beginCommand_tbuf (o : Op) (p : Phase) (s : State) : (s.beginCommand o p).tbuf = s.tbuf := rfl
@[simp] theorem State.beginCommand_tr (o : Op) (p : Phase) (s : State) : (s.beginCommand o p).tr = s.tr := rfl
@[simp] theorem State.beginCommand_env (o : Op) (p : Phase) (s : State) : (s.beginCommand o p).env = s.env := rfl

/-! ### endCommand -/

@[simp] theorem State.endCommand_key (s : State) : s.endCommand.key = s.key := rfl
@[simp] theorem State.endCommand_din (s : State) : s.endCommand.din = s.din := rfl
@[simp] theorem State.endCommand_dout (s : State) : s.endCommand.dout = s.dout := rfl
@[simp] theorem State.endCommand_l (s : State) : s.endCommand.l = s.l := rfl
@[simp] theorem State.endCommand_r (s : State) : s.endCommand.r = s.r := rfl
@[simp] theorem State.endCommand_c (s : State) : s.endCommand.c = s.c := rfl
@[simp] theorem State.endCommand_d (s : State) : s.endCommand.d = s.d := rfl
@[simp] theorem State.endCommand_sk (s : State) : s.endCommand.sk = s.sk := rfl
@[simp] theorem State.endCommand_busy (s : State) : s.endCommand.busy = false := rfl
@[simp] theorem State.endCommand_done (s : State) : s.endCommand.done = true := rfl
@[simp] theorem State.endCommand_skv (s : State) : s.endCommand.skv = s.skv := rfl
@[simp] theorem State.endCommand_keyw (s : State) : s.endCommand.keyw = s.keyw := rfl
@[simp] theorem State.endCommand_dinw (s : State) : s.endCommand.dinw = s.dinw := rfl
@[simp] theorem State.endCommand_fault (s : State) : s.endCommand.fault = s.fault := rfl
@[simp] theorem State.endCommand_mode (s : State) : s.endCommand.mode = s.mode := rfl
@[simp] theorem State.endCommand_cause (s : State) : s.endCommand.cause = s.cause := rfl
@[simp] theorem State.endCommand_phase (s : State) : s.endCommand.phase = .idle := rfl
@[simp] theorem State.endCommand_rnd (s : State) : s.endCommand.rnd = 0#5 := rfl
@[simp] theorem State.endCommand_op (s : State) : s.endCommand.op = .none := rfl
@[simp] theorem State.endCommand_trv (s : State) : s.endCommand.trv = s.trv := rfl
@[simp] theorem State.endCommand_tbuf (s : State) : s.endCommand.tbuf = s.tbuf := rfl
@[simp] theorem State.endCommand_tr (s : State) : s.endCommand.tr = s.tr := rfl
@[simp] theorem State.endCommand_env (s : State) : s.endCommand.env = s.env := rfl

/-! ### putText -/

@[simp] theorem State.putText_key (t : List Byte) (s : State) : (s.putText t).key = s.key := rfl
@[simp] theorem State.putText_din (t : List Byte) (s : State) : (s.putText t).din = s.din := rfl
@[simp] theorem State.putText_dout (t : List Byte) (s : State) : (s.putText t).dout = s.dout := rfl
@[simp] theorem State.putText_l (t : List Byte) (s : State) : (s.putText t).l = s.l := rfl
@[simp] theorem State.putText_r (t : List Byte) (s : State) : (s.putText t).r = s.r := rfl
@[simp] theorem State.putText_c (t : List Byte) (s : State) : (s.putText t).c = s.c := rfl
@[simp] theorem State.putText_d (t : List Byte) (s : State) : (s.putText t).d = s.d := rfl
@[simp] theorem State.putText_sk (t : List Byte) (s : State) : (s.putText t).sk = s.sk := rfl
@[simp] theorem State.putText_busy (t : List Byte) (s : State) : (s.putText t).busy = s.busy := rfl
@[simp] theorem State.putText_done (t : List Byte) (s : State) : (s.putText t).done = s.done := rfl
@[simp] theorem State.putText_skv (t : List Byte) (s : State) : (s.putText t).skv = s.skv := rfl
@[simp] theorem State.putText_keyw (t : List Byte) (s : State) : (s.putText t).keyw = s.keyw := rfl
@[simp] theorem State.putText_dinw (t : List Byte) (s : State) : (s.putText t).dinw = s.dinw := rfl
@[simp] theorem State.putText_fault (t : List Byte) (s : State) : (s.putText t).fault = s.fault := rfl
@[simp] theorem State.putText_mode (t : List Byte) (s : State) : (s.putText t).mode = s.mode := rfl
@[simp] theorem State.putText_cause (t : List Byte) (s : State) : (s.putText t).cause = s.cause := rfl
@[simp] theorem State.putText_phase (t : List Byte) (s : State) : (s.putText t).phase = s.phase := rfl
@[simp] theorem State.putText_rnd (t : List Byte) (s : State) : (s.putText t).rnd = s.rnd := rfl
@[simp] theorem State.putText_op (t : List Byte) (s : State) : (s.putText t).op = s.op := rfl
@[simp] theorem State.putText_trv (t : List Byte) (s : State) : (s.putText t).trv = s.trv := rfl
@[simp] theorem State.putText_tbuf (t : List Byte) (s : State) : (s.putText t).tbuf = memPut s.tbuf 0 t := rfl
@[simp] theorem State.putText_tr (t : List Byte) (s : State) : (s.putText t).tr = s.tr := rfl
@[simp] theorem State.putText_env (t : List Byte) (s : State) : (s.putText t).env = s.env := rfl

/-! ### writeTbufWord -/

@[simp] theorem State.writeTbufWord_key (w : Fin 8) (v : Word64) (s : State) : (s.writeTbufWord w v).key = s.key := rfl
@[simp] theorem State.writeTbufWord_din (w : Fin 8) (v : Word64) (s : State) : (s.writeTbufWord w v).din = s.din := rfl
@[simp] theorem State.writeTbufWord_dout (w : Fin 8) (v : Word64) (s : State) : (s.writeTbufWord w v).dout = s.dout := rfl
@[simp] theorem State.writeTbufWord_l (w : Fin 8) (v : Word64) (s : State) : (s.writeTbufWord w v).l = s.l := rfl
@[simp] theorem State.writeTbufWord_r (w : Fin 8) (v : Word64) (s : State) : (s.writeTbufWord w v).r = s.r := rfl
@[simp] theorem State.writeTbufWord_c (w : Fin 8) (v : Word64) (s : State) : (s.writeTbufWord w v).c = s.c := rfl
@[simp] theorem State.writeTbufWord_d (w : Fin 8) (v : Word64) (s : State) : (s.writeTbufWord w v).d = s.d := rfl
@[simp] theorem State.writeTbufWord_sk (w : Fin 8) (v : Word64) (s : State) : (s.writeTbufWord w v).sk = s.sk := rfl
@[simp] theorem State.writeTbufWord_busy (w : Fin 8) (v : Word64) (s : State) : (s.writeTbufWord w v).busy = s.busy := rfl
@[simp] theorem State.writeTbufWord_done (w : Fin 8) (v : Word64) (s : State) : (s.writeTbufWord w v).done = s.done := rfl
@[simp] theorem State.writeTbufWord_skv (w : Fin 8) (v : Word64) (s : State) : (s.writeTbufWord w v).skv = s.skv := rfl
@[simp] theorem State.writeTbufWord_keyw (w : Fin 8) (v : Word64) (s : State) : (s.writeTbufWord w v).keyw = s.keyw := rfl
@[simp] theorem State.writeTbufWord_dinw (w : Fin 8) (v : Word64) (s : State) : (s.writeTbufWord w v).dinw = s.dinw := rfl
@[simp] theorem State.writeTbufWord_fault (w : Fin 8) (v : Word64) (s : State) : (s.writeTbufWord w v).fault = s.fault := rfl
@[simp] theorem State.writeTbufWord_mode (w : Fin 8) (v : Word64) (s : State) : (s.writeTbufWord w v).mode = s.mode := rfl
@[simp] theorem State.writeTbufWord_cause (w : Fin 8) (v : Word64) (s : State) : (s.writeTbufWord w v).cause = s.cause := rfl
@[simp] theorem State.writeTbufWord_phase (w : Fin 8) (v : Word64) (s : State) : (s.writeTbufWord w v).phase = s.phase := rfl
@[simp] theorem State.writeTbufWord_rnd (w : Fin 8) (v : Word64) (s : State) : (s.writeTbufWord w v).rnd = s.rnd := rfl
@[simp] theorem State.writeTbufWord_op (w : Fin 8) (v : Word64) (s : State) : (s.writeTbufWord w v).op = s.op := rfl
@[simp] theorem State.writeTbufWord_trv (w : Fin 8) (v : Word64) (s : State) : (s.writeTbufWord w v).trv = s.trv := rfl
@[simp] theorem State.writeTbufWord_tbuf (w : Fin 8) (v : Word64) (s : State) : (s.writeTbufWord w v).tbuf = memWrite s.tbuf (8 * w) 8 v := rfl
@[simp] theorem State.writeTbufWord_tr (w : Fin 8) (v : Word64) (s : State) : (s.writeTbufWord w v).tr = s.tr := rfl
@[simp] theorem State.writeTbufWord_env (w : Fin 8) (v : Word64) (s : State) : (s.writeTbufWord w v).env = s.env := rfl

/-! ### writeKey -/

@[simp] theorem State.writeKey_key (v : Word64) (s : State) : (s.writeKey v).key = v := rfl
@[simp] theorem State.writeKey_din (v : Word64) (s : State) : (s.writeKey v).din = s.din := rfl
@[simp] theorem State.writeKey_dout (v : Word64) (s : State) : (s.writeKey v).dout = s.dout := rfl
@[simp] theorem State.writeKey_l (v : Word64) (s : State) : (s.writeKey v).l = s.l := rfl
@[simp] theorem State.writeKey_r (v : Word64) (s : State) : (s.writeKey v).r = s.r := rfl
@[simp] theorem State.writeKey_c (v : Word64) (s : State) : (s.writeKey v).c = s.c := rfl
@[simp] theorem State.writeKey_d (v : Word64) (s : State) : (s.writeKey v).d = s.d := rfl
@[simp] theorem State.writeKey_sk (v : Word64) (s : State) : (s.writeKey v).sk = s.sk := rfl
@[simp] theorem State.writeKey_busy (v : Word64) (s : State) : (s.writeKey v).busy = s.busy := rfl
@[simp] theorem State.writeKey_done (v : Word64) (s : State) : (s.writeKey v).done = s.done := rfl
@[simp] theorem State.writeKey_skv (v : Word64) (s : State) : (s.writeKey v).skv = false := rfl
@[simp] theorem State.writeKey_keyw (v : Word64) (s : State) : (s.writeKey v).keyw = true := rfl
@[simp] theorem State.writeKey_dinw (v : Word64) (s : State) : (s.writeKey v).dinw = s.dinw := rfl
@[simp] theorem State.writeKey_fault (v : Word64) (s : State) : (s.writeKey v).fault = s.fault := rfl
@[simp] theorem State.writeKey_mode (v : Word64) (s : State) : (s.writeKey v).mode = s.mode := rfl
@[simp] theorem State.writeKey_cause (v : Word64) (s : State) : (s.writeKey v).cause = s.cause := rfl
@[simp] theorem State.writeKey_phase (v : Word64) (s : State) : (s.writeKey v).phase = s.phase := rfl
@[simp] theorem State.writeKey_rnd (v : Word64) (s : State) : (s.writeKey v).rnd = s.rnd := rfl
@[simp] theorem State.writeKey_op (v : Word64) (s : State) : (s.writeKey v).op = s.op := rfl
@[simp] theorem State.writeKey_trv (v : Word64) (s : State) : (s.writeKey v).trv = s.trv := rfl
@[simp] theorem State.writeKey_tbuf (v : Word64) (s : State) : (s.writeKey v).tbuf = s.tbuf := rfl
@[simp] theorem State.writeKey_tr (v : Word64) (s : State) : (s.writeKey v).tr = s.tr := rfl
@[simp] theorem State.writeKey_env (v : Word64) (s : State) : (s.writeKey v).env = s.env := rfl

/-! ### writeDin -/

@[simp] theorem State.writeDin_key (v : Word64) (s : State) : (s.writeDin v).key = s.key := rfl
@[simp] theorem State.writeDin_din (v : Word64) (s : State) : (s.writeDin v).din = v := rfl
@[simp] theorem State.writeDin_dout (v : Word64) (s : State) : (s.writeDin v).dout = s.dout := rfl
@[simp] theorem State.writeDin_l (v : Word64) (s : State) : (s.writeDin v).l = s.l := rfl
@[simp] theorem State.writeDin_r (v : Word64) (s : State) : (s.writeDin v).r = s.r := rfl
@[simp] theorem State.writeDin_c (v : Word64) (s : State) : (s.writeDin v).c = s.c := rfl
@[simp] theorem State.writeDin_d (v : Word64) (s : State) : (s.writeDin v).d = s.d := rfl
@[simp] theorem State.writeDin_sk (v : Word64) (s : State) : (s.writeDin v).sk = s.sk := rfl
@[simp] theorem State.writeDin_busy (v : Word64) (s : State) : (s.writeDin v).busy = s.busy := rfl
@[simp] theorem State.writeDin_done (v : Word64) (s : State) : (s.writeDin v).done = s.done := rfl
@[simp] theorem State.writeDin_skv (v : Word64) (s : State) : (s.writeDin v).skv = s.skv := rfl
@[simp] theorem State.writeDin_keyw (v : Word64) (s : State) : (s.writeDin v).keyw = s.keyw := rfl
@[simp] theorem State.writeDin_dinw (v : Word64) (s : State) : (s.writeDin v).dinw = true := rfl
@[simp] theorem State.writeDin_fault (v : Word64) (s : State) : (s.writeDin v).fault = s.fault := rfl
@[simp] theorem State.writeDin_mode (v : Word64) (s : State) : (s.writeDin v).mode = s.mode := rfl
@[simp] theorem State.writeDin_cause (v : Word64) (s : State) : (s.writeDin v).cause = s.cause := rfl
@[simp] theorem State.writeDin_phase (v : Word64) (s : State) : (s.writeDin v).phase = s.phase := rfl
@[simp] theorem State.writeDin_rnd (v : Word64) (s : State) : (s.writeDin v).rnd = s.rnd := rfl
@[simp] theorem State.writeDin_op (v : Word64) (s : State) : (s.writeDin v).op = s.op := rfl
@[simp] theorem State.writeDin_trv (v : Word64) (s : State) : (s.writeDin v).trv = s.trv := rfl
@[simp] theorem State.writeDin_tbuf (v : Word64) (s : State) : (s.writeDin v).tbuf = s.tbuf := rfl
@[simp] theorem State.writeDin_tr (v : Word64) (s : State) : (s.writeDin v).tr = s.tr := rfl
@[simp] theorem State.writeDin_env (v : Word64) (s : State) : (s.writeDin v).env = s.env := rfl

/-! ### stepKsPc1 -/

@[simp] theorem State.stepKsPc1_key (s : State) : s.stepKsPc1.key = s.key := rfl
@[simp] theorem State.stepKsPc1_din (s : State) : s.stepKsPc1.din = s.din := rfl
@[simp] theorem State.stepKsPc1_dout (s : State) : s.stepKsPc1.dout = s.dout := rfl
@[simp] theorem State.stepKsPc1_l (s : State) : s.stepKsPc1.l = s.l := rfl
@[simp] theorem State.stepKsPc1_r (s : State) : s.stepKsPc1.r = s.r := rfl
@[simp] theorem State.stepKsPc1_c (s : State) : s.stepKsPc1.c = (pc1Halves s.key).1 := rfl
@[simp] theorem State.stepKsPc1_d (s : State) : s.stepKsPc1.d = (pc1Halves s.key).2 := rfl
@[simp] theorem State.stepKsPc1_sk (s : State) : s.stepKsPc1.sk = s.sk := rfl
@[simp] theorem State.stepKsPc1_busy (s : State) : s.stepKsPc1.busy = s.busy := rfl
@[simp] theorem State.stepKsPc1_done (s : State) : s.stepKsPc1.done = s.done := rfl
@[simp] theorem State.stepKsPc1_skv (s : State) : s.stepKsPc1.skv = s.skv := rfl
@[simp] theorem State.stepKsPc1_keyw (s : State) : s.stepKsPc1.keyw = s.keyw := rfl
@[simp] theorem State.stepKsPc1_dinw (s : State) : s.stepKsPc1.dinw = s.dinw := rfl
@[simp] theorem State.stepKsPc1_fault (s : State) : s.stepKsPc1.fault = s.fault := rfl
@[simp] theorem State.stepKsPc1_mode (s : State) : s.stepKsPc1.mode = s.mode := rfl
@[simp] theorem State.stepKsPc1_cause (s : State) : s.stepKsPc1.cause = s.cause := rfl
@[simp] theorem State.stepKsPc1_phase (s : State) : s.stepKsPc1.phase = .ksRot := rfl
@[simp] theorem State.stepKsPc1_rnd (s : State) : s.stepKsPc1.rnd = 1#5 := rfl
@[simp] theorem State.stepKsPc1_op (s : State) : s.stepKsPc1.op = s.op := rfl
@[simp] theorem State.stepKsPc1_trv (s : State) : s.stepKsPc1.trv = s.trv := rfl
@[simp] theorem State.stepKsPc1_tbuf (s : State) : s.stepKsPc1.tbuf = s.tbuf := rfl
@[simp] theorem State.stepKsPc1_tr (s : State) : s.stepKsPc1.tr = s.tr := rfl
@[simp] theorem State.stepKsPc1_env (s : State) : s.stepKsPc1.env = s.env := rfl

/-! ### rotateAndSelect -/

@[simp] theorem State.rotateAndSelect_key (i : Fin 16) (s : State) : (s.rotateAndSelect i).key = s.key := rfl
@[simp] theorem State.rotateAndSelect_din (i : Fin 16) (s : State) : (s.rotateAndSelect i).din = s.din := rfl
@[simp] theorem State.rotateAndSelect_dout (i : Fin 16) (s : State) : (s.rotateAndSelect i).dout = s.dout := rfl
@[simp] theorem State.rotateAndSelect_l (i : Fin 16) (s : State) : (s.rotateAndSelect i).l = s.l := rfl
@[simp] theorem State.rotateAndSelect_r (i : Fin 16) (s : State) : (s.rotateAndSelect i).r = s.r := rfl
@[simp] theorem State.rotateAndSelect_c (i : Fin 16) (s : State) : (s.rotateAndSelect i).c = (rotateHalves i (s.c, s.d)).1 := rfl
@[simp] theorem State.rotateAndSelect_d (i : Fin 16) (s : State) : (s.rotateAndSelect i).d = (rotateHalves i (s.c, s.d)).2 := rfl
@[simp] theorem State.rotateAndSelect_sk (i : Fin 16) (s : State) : (s.rotateAndSelect i).sk = s.sk.set i (pc2Subkey (rotateHalves i (s.c, s.d))) := rfl
@[simp] theorem State.rotateAndSelect_busy (i : Fin 16) (s : State) : (s.rotateAndSelect i).busy = s.busy := rfl
@[simp] theorem State.rotateAndSelect_done (i : Fin 16) (s : State) : (s.rotateAndSelect i).done = s.done := rfl
@[simp] theorem State.rotateAndSelect_skv (i : Fin 16) (s : State) : (s.rotateAndSelect i).skv = s.skv := rfl
@[simp] theorem State.rotateAndSelect_keyw (i : Fin 16) (s : State) : (s.rotateAndSelect i).keyw = s.keyw := rfl
@[simp] theorem State.rotateAndSelect_dinw (i : Fin 16) (s : State) : (s.rotateAndSelect i).dinw = s.dinw := rfl
@[simp] theorem State.rotateAndSelect_fault (i : Fin 16) (s : State) : (s.rotateAndSelect i).fault = s.fault := rfl
@[simp] theorem State.rotateAndSelect_mode (i : Fin 16) (s : State) : (s.rotateAndSelect i).mode = s.mode := rfl
@[simp] theorem State.rotateAndSelect_cause (i : Fin 16) (s : State) : (s.rotateAndSelect i).cause = s.cause := rfl
@[simp] theorem State.rotateAndSelect_phase (i : Fin 16) (s : State) : (s.rotateAndSelect i).phase = s.phase := rfl
@[simp] theorem State.rotateAndSelect_rnd (i : Fin 16) (s : State) : (s.rotateAndSelect i).rnd = s.rnd := rfl
@[simp] theorem State.rotateAndSelect_op (i : Fin 16) (s : State) : (s.rotateAndSelect i).op = s.op := rfl
@[simp] theorem State.rotateAndSelect_trv (i : Fin 16) (s : State) : (s.rotateAndSelect i).trv = s.trv := rfl
@[simp] theorem State.rotateAndSelect_tbuf (i : Fin 16) (s : State) : (s.rotateAndSelect i).tbuf = s.tbuf := rfl
@[simp] theorem State.rotateAndSelect_tr (i : Fin 16) (s : State) : (s.rotateAndSelect i).tr = s.tr := rfl
@[simp] theorem State.rotateAndSelect_env (i : Fin 16) (s : State) : (s.rotateAndSelect i).env = s.env := rfl

/-! ### stepIperm -/

@[simp] theorem State.stepIperm_key (s : State) : s.stepIperm.key = s.key := rfl
@[simp] theorem State.stepIperm_din (s : State) : s.stepIperm.din = s.din := rfl
@[simp] theorem State.stepIperm_dout (s : State) : s.stepIperm.dout = s.dout := rfl
@[simp] theorem State.stepIperm_l (s : State) : s.stepIperm.l = leftHalf (initialPermutation s.din) := rfl
@[simp] theorem State.stepIperm_r (s : State) : s.stepIperm.r = rightHalf (initialPermutation s.din) := rfl
@[simp] theorem State.stepIperm_c (s : State) : s.stepIperm.c = s.c := rfl
@[simp] theorem State.stepIperm_d (s : State) : s.stepIperm.d = s.d := rfl
@[simp] theorem State.stepIperm_sk (s : State) : s.stepIperm.sk = s.sk := rfl
@[simp] theorem State.stepIperm_busy (s : State) : s.stepIperm.busy = s.busy := rfl
@[simp] theorem State.stepIperm_done (s : State) : s.stepIperm.done = s.done := rfl
@[simp] theorem State.stepIperm_skv (s : State) : s.stepIperm.skv = s.skv := rfl
@[simp] theorem State.stepIperm_keyw (s : State) : s.stepIperm.keyw = s.keyw := rfl
@[simp] theorem State.stepIperm_dinw (s : State) : s.stepIperm.dinw = s.dinw := rfl
@[simp] theorem State.stepIperm_fault (s : State) : s.stepIperm.fault = s.fault := rfl
@[simp] theorem State.stepIperm_mode (s : State) : s.stepIperm.mode = s.mode := rfl
@[simp] theorem State.stepIperm_cause (s : State) : s.stepIperm.cause = s.cause := rfl
@[simp] theorem State.stepIperm_phase (s : State) : s.stepIperm.phase = .round := rfl
@[simp] theorem State.stepIperm_rnd (s : State) : s.stepIperm.rnd = 1#5 := rfl
@[simp] theorem State.stepIperm_op (s : State) : s.stepIperm.op = s.op := rfl
@[simp] theorem State.stepIperm_trv (s : State) : s.stepIperm.trv = s.trv := rfl
@[simp] theorem State.stepIperm_tbuf (s : State) : s.stepIperm.tbuf = s.tbuf := rfl
@[simp] theorem State.stepIperm_tr (s : State) : s.stepIperm.tr = s.tr := rfl
@[simp] theorem State.stepIperm_env (s : State) : s.stepIperm.env = s.env := rfl

/-! ### runRound -/

@[simp] theorem State.runRound_key (m : Mode) (i : Fin 16) (s : State) : (s.runRound m i).key = s.key := rfl
@[simp] theorem State.runRound_din (m : Mode) (i : Fin 16) (s : State) : (s.runRound m i).din = s.din := rfl
@[simp] theorem State.runRound_dout (m : Mode) (i : Fin 16) (s : State) : (s.runRound m i).dout = s.dout := rfl
@[simp] theorem State.runRound_l (m : Mode) (i : Fin 16) (s : State) : (s.runRound m i).l = (roundTransform s.l s.r s.sk[subkeySlot m i] (roundIndex i)).left := rfl
@[simp] theorem State.runRound_r (m : Mode) (i : Fin 16) (s : State) : (s.runRound m i).r = (roundTransform s.l s.r s.sk[subkeySlot m i] (roundIndex i)).right := rfl
@[simp] theorem State.runRound_c (m : Mode) (i : Fin 16) (s : State) : (s.runRound m i).c = s.c := rfl
@[simp] theorem State.runRound_d (m : Mode) (i : Fin 16) (s : State) : (s.runRound m i).d = s.d := rfl
@[simp] theorem State.runRound_sk (m : Mode) (i : Fin 16) (s : State) : (s.runRound m i).sk = s.sk := rfl
@[simp] theorem State.runRound_busy (m : Mode) (i : Fin 16) (s : State) : (s.runRound m i).busy = s.busy := rfl
@[simp] theorem State.runRound_done (m : Mode) (i : Fin 16) (s : State) : (s.runRound m i).done = s.done := rfl
@[simp] theorem State.runRound_skv (m : Mode) (i : Fin 16) (s : State) : (s.runRound m i).skv = s.skv := rfl
@[simp] theorem State.runRound_keyw (m : Mode) (i : Fin 16) (s : State) : (s.runRound m i).keyw = s.keyw := rfl
@[simp] theorem State.runRound_dinw (m : Mode) (i : Fin 16) (s : State) : (s.runRound m i).dinw = s.dinw := rfl
@[simp] theorem State.runRound_fault (m : Mode) (i : Fin 16) (s : State) : (s.runRound m i).fault = s.fault := rfl
@[simp] theorem State.runRound_mode (m : Mode) (i : Fin 16) (s : State) : (s.runRound m i).mode = s.mode := rfl
@[simp] theorem State.runRound_cause (m : Mode) (i : Fin 16) (s : State) : (s.runRound m i).cause = s.cause := rfl
@[simp] theorem State.runRound_phase (m : Mode) (i : Fin 16) (s : State) : (s.runRound m i).phase = s.phase := rfl
@[simp] theorem State.runRound_rnd (m : Mode) (i : Fin 16) (s : State) : (s.runRound m i).rnd = s.rnd := rfl
@[simp] theorem State.runRound_op (m : Mode) (i : Fin 16) (s : State) : (s.runRound m i).op = s.op := rfl
@[simp] theorem State.runRound_trv (m : Mode) (i : Fin 16) (s : State) : (s.runRound m i).trv = s.trv ||| (1#16 <<< i.val) := rfl
@[simp] theorem State.runRound_tbuf (m : Mode) (i : Fin 16) (s : State) : (s.runRound m i).tbuf = s.tbuf := rfl
@[simp] theorem State.runRound_tr (m : Mode) (i : Fin 16) (s : State) : (s.runRound m i).tr = s.tr.set i (roundTransform s.l s.r s.sk[subkeySlot m i] (roundIndex i)).trace := rfl
@[simp] theorem State.runRound_env (m : Mode) (i : Fin 16) (s : State) : (s.runRound m i).env = s.env := rfl

/-! ### stepFperm -/

@[simp] theorem State.stepFperm_key (s : State) : s.stepFperm.key = s.key := rfl
@[simp] theorem State.stepFperm_din (s : State) : s.stepFperm.din = s.din := rfl
@[simp] theorem State.stepFperm_dout (s : State) : s.stepFperm.dout = finalPermutation (preOutput s.l s.r) := rfl
@[simp] theorem State.stepFperm_l (s : State) : s.stepFperm.l = s.l := rfl
@[simp] theorem State.stepFperm_r (s : State) : s.stepFperm.r = s.r := rfl
@[simp] theorem State.stepFperm_c (s : State) : s.stepFperm.c = s.c := rfl
@[simp] theorem State.stepFperm_d (s : State) : s.stepFperm.d = s.d := rfl
@[simp] theorem State.stepFperm_sk (s : State) : s.stepFperm.sk = s.sk := rfl
@[simp] theorem State.stepFperm_busy (s : State) : s.stepFperm.busy = false := rfl
@[simp] theorem State.stepFperm_done (s : State) : s.stepFperm.done = true := rfl
@[simp] theorem State.stepFperm_skv (s : State) : s.stepFperm.skv = s.skv := rfl
@[simp] theorem State.stepFperm_keyw (s : State) : s.stepFperm.keyw = s.keyw := rfl
@[simp] theorem State.stepFperm_dinw (s : State) : s.stepFperm.dinw = s.dinw := rfl
@[simp] theorem State.stepFperm_fault (s : State) : s.stepFperm.fault = s.fault := rfl
@[simp] theorem State.stepFperm_mode (s : State) : s.stepFperm.mode = s.mode := rfl
@[simp] theorem State.stepFperm_cause (s : State) : s.stepFperm.cause = s.cause := rfl
@[simp] theorem State.stepFperm_phase (s : State) : s.stepFperm.phase = .idle := rfl
@[simp] theorem State.stepFperm_rnd (s : State) : s.stepFperm.rnd = 0#5 := rfl
@[simp] theorem State.stepFperm_op (s : State) : s.stepFperm.op = .none := rfl
@[simp] theorem State.stepFperm_trv (s : State) : s.stepFperm.trv = s.trv := rfl
@[simp] theorem State.stepFperm_tbuf (s : State) : s.stepFperm.tbuf = s.tbuf := rfl
@[simp] theorem State.stepFperm_tr (s : State) : s.stepFperm.tr = s.tr := rfl
@[simp] theorem State.stepFperm_env (s : State) : s.stepFperm.env = s.env := rfl

/-! ### noteRead -/

@[simp] theorem State.noteRead_key (a : Index) (s : State) : (s.noteRead a).key = s.key := rfl
@[simp] theorem State.noteRead_din (a : Index) (s : State) : (s.noteRead a).din = s.din := rfl
@[simp] theorem State.noteRead_dout (a : Index) (s : State) : (s.noteRead a).dout = s.dout := rfl
@[simp] theorem State.noteRead_l (a : Index) (s : State) : (s.noteRead a).l = s.l := rfl
@[simp] theorem State.noteRead_r (a : Index) (s : State) : (s.noteRead a).r = s.r := rfl
@[simp] theorem State.noteRead_c (a : Index) (s : State) : (s.noteRead a).c = s.c := rfl
@[simp] theorem State.noteRead_d (a : Index) (s : State) : (s.noteRead a).d = s.d := rfl
@[simp] theorem State.noteRead_sk (a : Index) (s : State) : (s.noteRead a).sk = s.sk := rfl
@[simp] theorem State.noteRead_busy (a : Index) (s : State) : (s.noteRead a).busy = s.busy := rfl
@[simp] theorem State.noteRead_done (a : Index) (s : State) : (s.noteRead a).done = s.done := rfl
@[simp] theorem State.noteRead_skv (a : Index) (s : State) : (s.noteRead a).skv = s.skv := rfl
@[simp] theorem State.noteRead_keyw (a : Index) (s : State) : (s.noteRead a).keyw = s.keyw := rfl
@[simp] theorem State.noteRead_dinw (a : Index) (s : State) : (s.noteRead a).dinw = s.dinw := rfl
@[simp] theorem State.noteRead_fault (a : Index) (s : State) : (s.noteRead a).fault = s.fault := rfl
@[simp] theorem State.noteRead_mode (a : Index) (s : State) : (s.noteRead a).mode = s.mode := rfl
@[simp] theorem State.noteRead_cause (a : Index) (s : State) : (s.noteRead a).cause = s.cause := rfl
@[simp] theorem State.noteRead_phase (a : Index) (s : State) : (s.noteRead a).phase = s.phase := rfl
@[simp] theorem State.noteRead_rnd (a : Index) (s : State) : (s.noteRead a).rnd = s.rnd := rfl
@[simp] theorem State.noteRead_op (a : Index) (s : State) : (s.noteRead a).op = s.op := rfl
@[simp] theorem State.noteRead_trv (a : Index) (s : State) : (s.noteRead a).trv = s.trv := rfl
@[simp] theorem State.noteRead_tbuf (a : Index) (s : State) : (s.noteRead a).tbuf = s.tbuf := rfl
@[simp] theorem State.noteRead_tr (a : Index) (s : State) : (s.noteRead a).tr = s.tr := rfl
@[simp] theorem State.noteRead_env (a : Index) (s : State) : (s.noteRead a).env = { s.env with reads := s.env.reads ++ [(a, hostRead a s)] } := rfl

/-! ### sequencerTook -/

@[simp] theorem State.sequencerTook_key (s : State) : s.sequencerTook.key = s.key := rfl
@[simp] theorem State.sequencerTook_din (s : State) : s.sequencerTook.din = s.din := rfl
@[simp] theorem State.sequencerTook_dout (s : State) : s.sequencerTook.dout = s.dout := rfl
@[simp] theorem State.sequencerTook_l (s : State) : s.sequencerTook.l = s.l := rfl
@[simp] theorem State.sequencerTook_r (s : State) : s.sequencerTook.r = s.r := rfl
@[simp] theorem State.sequencerTook_c (s : State) : s.sequencerTook.c = s.c := rfl
@[simp] theorem State.sequencerTook_d (s : State) : s.sequencerTook.d = s.d := rfl
@[simp] theorem State.sequencerTook_sk (s : State) : s.sequencerTook.sk = s.sk := rfl
@[simp] theorem State.sequencerTook_busy (s : State) : s.sequencerTook.busy = s.busy := rfl
@[simp] theorem State.sequencerTook_done (s : State) : s.sequencerTook.done = s.done := rfl
@[simp] theorem State.sequencerTook_skv (s : State) : s.sequencerTook.skv = s.skv := rfl
@[simp] theorem State.sequencerTook_keyw (s : State) : s.sequencerTook.keyw = s.keyw := rfl
@[simp] theorem State.sequencerTook_dinw (s : State) : s.sequencerTook.dinw = s.dinw := rfl
@[simp] theorem State.sequencerTook_fault (s : State) : s.sequencerTook.fault = s.fault := rfl
@[simp] theorem State.sequencerTook_mode (s : State) : s.sequencerTook.mode = s.mode := rfl
@[simp] theorem State.sequencerTook_cause (s : State) : s.sequencerTook.cause = s.cause := rfl
@[simp] theorem State.sequencerTook_phase (s : State) : s.sequencerTook.phase = s.phase := rfl
@[simp] theorem State.sequencerTook_rnd (s : State) : s.sequencerTook.rnd = s.rnd := rfl
@[simp] theorem State.sequencerTook_op (s : State) : s.sequencerTook.op = s.op := rfl
@[simp] theorem State.sequencerTook_trv (s : State) : s.sequencerTook.trv = s.trv := rfl
@[simp] theorem State.sequencerTook_tbuf (s : State) : s.sequencerTook.tbuf = s.tbuf := rfl
@[simp] theorem State.sequencerTook_tr (s : State) : s.sequencerTook.tr = s.tr := rfl
@[simp] theorem State.sequencerTook_env (s : State) : s.sequencerTook.env = { s.env with turn := s.env.turn + 1, slots := none } := rfl

/-! ### hostTook: only the host side changes -/

@[simp] theorem State.hostTook_key (rest : List HostAction) (s : State) : (s.hostTook rest).key = s.key := by
  unfold State.hostTook; split <;> rfl
@[simp] theorem State.hostTook_din (rest : List HostAction) (s : State) : (s.hostTook rest).din = s.din := by
  unfold State.hostTook; split <;> rfl
@[simp] theorem State.hostTook_dout (rest : List HostAction) (s : State) : (s.hostTook rest).dout = s.dout := by
  unfold State.hostTook; split <;> rfl
@[simp] theorem State.hostTook_l (rest : List HostAction) (s : State) : (s.hostTook rest).l = s.l := by
  unfold State.hostTook; split <;> rfl
@[simp] theorem State.hostTook_r (rest : List HostAction) (s : State) : (s.hostTook rest).r = s.r := by
  unfold State.hostTook; split <;> rfl
@[simp] theorem State.hostTook_c (rest : List HostAction) (s : State) : (s.hostTook rest).c = s.c := by
  unfold State.hostTook; split <;> rfl
@[simp] theorem State.hostTook_d (rest : List HostAction) (s : State) : (s.hostTook rest).d = s.d := by
  unfold State.hostTook; split <;> rfl
@[simp] theorem State.hostTook_sk (rest : List HostAction) (s : State) : (s.hostTook rest).sk = s.sk := by
  unfold State.hostTook; split <;> rfl
@[simp] theorem State.hostTook_busy (rest : List HostAction) (s : State) : (s.hostTook rest).busy = s.busy := by
  unfold State.hostTook; split <;> rfl
@[simp] theorem State.hostTook_done (rest : List HostAction) (s : State) : (s.hostTook rest).done = s.done := by
  unfold State.hostTook; split <;> rfl
@[simp] theorem State.hostTook_skv (rest : List HostAction) (s : State) : (s.hostTook rest).skv = s.skv := by
  unfold State.hostTook; split <;> rfl
@[simp] theorem State.hostTook_keyw (rest : List HostAction) (s : State) : (s.hostTook rest).keyw = s.keyw := by
  unfold State.hostTook; split <;> rfl
@[simp] theorem State.hostTook_dinw (rest : List HostAction) (s : State) : (s.hostTook rest).dinw = s.dinw := by
  unfold State.hostTook; split <;> rfl
@[simp] theorem State.hostTook_fault (rest : List HostAction) (s : State) : (s.hostTook rest).fault = s.fault := by
  unfold State.hostTook; split <;> rfl
@[simp] theorem State.hostTook_mode (rest : List HostAction) (s : State) : (s.hostTook rest).mode = s.mode := by
  unfold State.hostTook; split <;> rfl
@[simp] theorem State.hostTook_cause (rest : List HostAction) (s : State) : (s.hostTook rest).cause = s.cause := by
  unfold State.hostTook; split <;> rfl
@[simp] theorem State.hostTook_phase (rest : List HostAction) (s : State) : (s.hostTook rest).phase = s.phase := by
  unfold State.hostTook; split <;> rfl
@[simp] theorem State.hostTook_rnd (rest : List HostAction) (s : State) : (s.hostTook rest).rnd = s.rnd := by
  unfold State.hostTook; split <;> rfl
@[simp] theorem State.hostTook_op (rest : List HostAction) (s : State) : (s.hostTook rest).op = s.op := by
  unfold State.hostTook; split <;> rfl
@[simp] theorem State.hostTook_trv (rest : List HostAction) (s : State) : (s.hostTook rest).trv = s.trv := by
  unfold State.hostTook; split <;> rfl
@[simp] theorem State.hostTook_tbuf (rest : List HostAction) (s : State) : (s.hostTook rest).tbuf = s.tbuf := by
  unfold State.hostTook; split <;> rfl
@[simp] theorem State.hostTook_tr (rest : List HostAction) (s : State) : (s.hostTook rest).tr = s.tr := by
  unfold State.hostTook; split <;> rfl

/-! ### pollStatus: only the host side changes -/

@[simp] theorem State.pollStatus_key (s : State) : s.pollStatus.key = s.key := by
  unfold State.pollStatus; split <;> rfl
@[simp] theorem State.pollStatus_din (s : State) : s.pollStatus.din = s.din := by
  unfold State.pollStatus; split <;> rfl
@[simp] theorem State.pollStatus_dout (s : State) : s.pollStatus.dout = s.dout := by
  unfold State.pollStatus; split <;> rfl
@[simp] theorem State.pollStatus_l (s : State) : s.pollStatus.l = s.l := by
  unfold State.pollStatus; split <;> rfl
@[simp] theorem State.pollStatus_r (s : State) : s.pollStatus.r = s.r := by
  unfold State.pollStatus; split <;> rfl
@[simp] theorem State.pollStatus_c (s : State) : s.pollStatus.c = s.c := by
  unfold State.pollStatus; split <;> rfl
@[simp] theorem State.pollStatus_d (s : State) : s.pollStatus.d = s.d := by
  unfold State.pollStatus; split <;> rfl
@[simp] theorem State.pollStatus_sk (s : State) : s.pollStatus.sk = s.sk := by
  unfold State.pollStatus; split <;> rfl
@[simp] theorem State.pollStatus_busy (s : State) : s.pollStatus.busy = s.busy := by
  unfold State.pollStatus; split <;> rfl
@[simp] theorem State.pollStatus_done (s : State) : s.pollStatus.done = s.done := by
  unfold State.pollStatus; split <;> rfl
@[simp] theorem State.pollStatus_skv (s : State) : s.pollStatus.skv = s.skv := by
  unfold State.pollStatus; split <;> rfl
@[simp] theorem State.pollStatus_keyw (s : State) : s.pollStatus.keyw = s.keyw := by
  unfold State.pollStatus; split <;> rfl
@[simp] theorem State.pollStatus_dinw (s : State) : s.pollStatus.dinw = s.dinw := by
  unfold State.pollStatus; split <;> rfl
@[simp] theorem State.pollStatus_fault (s : State) : s.pollStatus.fault = s.fault := by
  unfold State.pollStatus; split <;> rfl
@[simp] theorem State.pollStatus_mode (s : State) : s.pollStatus.mode = s.mode := by
  unfold State.pollStatus; split <;> rfl
@[simp] theorem State.pollStatus_cause (s : State) : s.pollStatus.cause = s.cause := by
  unfold State.pollStatus; split <;> rfl
@[simp] theorem State.pollStatus_phase (s : State) : s.pollStatus.phase = s.phase := by
  unfold State.pollStatus; split <;> rfl
@[simp] theorem State.pollStatus_rnd (s : State) : s.pollStatus.rnd = s.rnd := by
  unfold State.pollStatus; split <;> rfl
@[simp] theorem State.pollStatus_op (s : State) : s.pollStatus.op = s.op := by
  unfold State.pollStatus; split <;> rfl
@[simp] theorem State.pollStatus_trv (s : State) : s.pollStatus.trv = s.trv := by
  unfold State.pollStatus; split <;> rfl
@[simp] theorem State.pollStatus_tbuf (s : State) : s.pollStatus.tbuf = s.tbuf := by
  unfold State.pollStatus; split <;> rfl
@[simp] theorem State.pollStatus_tr (s : State) : s.pollStatus.tr = s.tr := by
  unfold State.pollStatus; split <;> rfl

end Sys2Proof.Machine
end

