-- ==== Sys2Proof/Laws/Ops.lean ====
section
/-! SUPPORT. Everything a command, a host action, a sequencer step and a step can do, said once; later proofs cite
these lemmas and unfold no meaning. -/

namespace Sys2Proof.Machine

/-! ### The gate before every host write but SRST -/

theorem gateWrite_ready (body : State → State) (s : State) (hb : s.busy = false) (hf : s.fault = false) :
    s.gateWrite body = body s := by simp [State.gateWrite, hb, hf]

theorem gateWrite_busy (body : State → State) (s : State) (hb : s.busy = true) (hf : s.fault = false) :
    s.gateWrite body = s.raiseFault .busyAccess := by simp [State.gateWrite, hb, hf]

theorem gateWrite_faulted (body : State → State) (s : State) (hf : s.fault = true) : s.gateWrite body = s := by
  simp [State.gateWrite, hf]

/-! ### What a host action can do -/

/-- Everything one action of the host can do to the state. -/
inductive HostEffect (s : State) : State → Prop where
  /-- Nothing: an ignored write, a NOP. -/
  | same : HostEffect s s
  /-- Only the host side changes: a read. -/
  | hostSide (e : HostSide) : HostEffect s { s with env := e }
  /-- Fault entry. -/
  | raise (k : Cause) (hf : s.fault = false) (hk : k ≠ .none) (hi : k ≠ .internal) : HostEffect s (s.raiseFault k)
  /-- SRST, HostReset. -/
  | reset : HostEffect s s.toReset
  /-- STHEX, STBIN. -/
  | text (t : List Byte) (hb : s.busy = false) (hf : s.fault = false) (ht : t.length ≤ tbufBytes) :
      HostEffect s (s.putText t)
  /-- A write of a TBUF word. -/
  | tbufWord (w : Fin 8) (v : Word64) (hb : s.busy = false) (hf : s.fault = false) :
      HostEffect s (s.writeTbufWord w v)
  /-- A write of KEY, LDHEX KEY, LDBIN KEY. -/
  | key (v : Word64) (hb : s.busy = false) (hf : s.fault = false) : HostEffect s (s.writeKey v)
  /-- A write of DIN, LDHEX DIN, LDBIN DIN. -/
  | din (v : Word64) (hb : s.busy = false) (hf : s.fault = false) : HostEffect s (s.writeDin v)
  /-- Acceptance of KEYSCHED. -/
  | keysched (hb : s.busy = false) (hf : s.fault = false) (hk : s.keyw = true) :
      HostEffect s { s.beginCommand .keysched .ksPc1 with skv := false }
  /-- Acceptance of ENC or DEC. -/
  | block (o : Op) (m : Mode) (ho : blockMode o = some m) (hb : s.busy = false) (hf : s.fault = false)
      (hk : s.keyw = true) (hd : s.dinw = true) :
      HostEffect s { s.beginCommand o (if s.skv then .iperm else .ksPc1) with
        mode := m, trv := 0#16, tr := Vector.replicate 16 TraceRecord.zero }

/-- The gate adds nothing but the ignored write and `BUSY_ACCESS`. -/
theorem gateWrite_effect (body : State → State) (s : State)
    (h : s.busy = false → s.fault = false → HostEffect s (body s)) : HostEffect s (s.gateWrite body) := by
  rcases hf : s.fault with _ | _
  · rcases hb : s.busy with _ | _
    · rw [gateWrite_ready body s hb hf]
      exact h hb hf
    · rw [gateWrite_busy body s hb hf]
      exact .raise .busyAccess hf (by decide) (by decide)
  · rw [gateWrite_faulted body s hf]
    exact .same

theorem loadText_effect (rd : DataReg) (o : Option Word64) (s : State) (hb : s.busy = false) (hf : s.fault = false) :
    HostEffect s (s.loadText rd o) := by
  cases rd with
  | dout => exact .raise .illegalCmd hf (by decide) (by decide)
  | key =>
    cases o with
    | none => exact .raise .encoding hf (by decide) (by decide)
    | some v => exact .key v hb hf
  | din =>
    cases o with
    | none => exact .raise .encoding hf (by decide) (by decide)
    | some v => exact .din v hb hf

theorem acceptBlock_effect (o : Op) (m : Mode) (ho : blockMode o = some m) (s : State) (hb : s.busy = false)
    (hf : s.fault = false) : HostEffect s (s.acceptBlock o m) := by
  rcases hk : s.keyw with _ | _
  · simp only [State.acceptBlock, hk]
    exact .raise .noKey hf (by decide) (by decide)
  · rcases hd : s.dinw with _ | _
    · simp only [State.acceptBlock, hk, hd]
      exact .raise .noData hf (by decide) (by decide)
    · simp only [State.acceptBlock, hk, hd, if_true]
      exact .block o m ho hb hf hk hd

/-- Every command answers a next state, and only by one of the effects above. -/
theorem exec_effect (i : Instr) (s : State) : ∃ t, exec i s = .next t ∧ HostEffect s t := by
  cases i with
  | nop => exact ⟨_, rfl, gateWrite_effect _ s fun _ _ => .same⟩
  | keysched =>
    refine ⟨_, rfl, gateWrite_effect _ s fun hb hf => ?_⟩
    rcases hk : s.keyw with _ | _
    · simp only
      exact .raise .noKey hf (by decide) (by decide)
    · simp only [if_true]
      exact .keysched hb hf hk
  | enc => exact ⟨_, rfl, gateWrite_effect _ s fun hb hf => acceptBlock_effect .enc .enc rfl s hb hf⟩
  | dec => exact ⟨_, rfl, gateWrite_effect _ s fun hb hf => acceptBlock_effect .dec .dec rfl s hb hf⟩
  | ldhex rd => exact ⟨_, rfl, gateWrite_effect _ s fun hb hf => loadText_effect rd _ s hb hf⟩
  | ldbin rd => exact ⟨_, rfl, gateWrite_effect _ s fun hb hf => loadText_effect rd _ s hb hf⟩
  | sthex rs => exact ⟨_, rfl, gateWrite_effect _ s fun hb hf => .text _ hb hf (by simp [tbufBytes])⟩
  | stbin rs => exact ⟨_, rfl, gateWrite_effect _ s fun hb hf => .text _ hb hf (by simp [tbufBytes])⟩
  | srst => exact ⟨_, rfl, .reset⟩

theorem raise_badAddr_effect (s : State) : HostEffect s (s.gateWrite (State.raiseFault .badAddr)) :=
  gateWrite_effect _ s fun _ hf => .raise .badAddr hf (by decide) (by decide)

/-- Every host write answers a next state, and only by one of the effects above. -/
theorem hostWrite_effect (a : Index) (v : Word64) (s : State) : ∃ t, hostWrite a v s = .next t ∧ HostEffect s t := by
  unfold hostWrite
  split
  · unfold writeCommand
    split
    · exact exec_effect _ s
    · exact ⟨_, rfl, gateWrite_effect _ s fun _ hf => .raise .illegalCmd hf (by decide) (by decide)⟩
  · exact ⟨_, rfl, gateWrite_effect _ s fun hb hf => .key v hb hf⟩
  · exact ⟨_, rfl, gateWrite_effect _ s fun hb hf => .din v hb hf⟩
  · exact ⟨_, rfl, gateWrite_effect _ s fun hb hf => .tbufWord _ v hb hf⟩
  · exact ⟨_, rfl, raise_badAddr_effect s⟩

/-- The state after a poll differs from the state before it on the host side only. -/
theorem pollStatus_hostSide (s : State) : HostEffect s s.pollStatus := by
  unfold State.pollStatus
  split
  · exact .hostSide _
  · exact .hostSide _

/-- Every host action answers a next state, and only by one of the effects above. -/
theorem hostAct_effect (a : HostAction) (s : State) : ∃ t, hostAct a s = .next t ∧ HostEffect s t := by
  cases a with
  | write i v => exact hostWrite_effect i v s
  | read i => exact ⟨_, rfl, .hostSide _⟩
  | reset => exact ⟨_, rfl, .reset⟩
  | wait => exact ⟨_, rfl, pollStatus_hostSide s⟩

/-! ### What a sequencer step can do -/

/-- The slot of a legal round number. -/
theorem roundSlot_eq_some (n : BitVec 5) (i : Fin 16) : roundSlot n = some i ↔ n.toNat = i.val + 1 := by
  unfold roundSlot
  split
  · rename_i h
    rw [Option.some.injEq]
    constructor
    · rintro rfl
      simp; omega
    · intro e
      ext
      simp; omega
  · rename_i h
    simp
    omega

/-- Every step of the sequencer (10_state.md R31). -/
theorem phaseStep_cases {s t : State} (h : phaseStep s = .next t) :
    (s.phase = .ksPc1 ∧ t = s.stepKsPc1) ∨
    (∃ i, s.phase = .ksRot ∧ s.rnd.toNat = i.val + 1 ∧ t = s.stepKsRot i) ∨
    (s.phase = .iperm ∧ t = s.stepIperm) ∨
    (∃ i m, s.phase = .round ∧ s.rnd.toNat = i.val + 1 ∧ blockMode s.op = some m ∧ t = s.stepRound m i) ∨
    (s.phase = .fperm ∧ t = s.stepFperm) := by
  unfold phaseStep at h
  split at h
  · cases h
  · cases h; exact .inl ⟨by assumption, rfl⟩
  · split at h
    · rename_i i hi
      cases h
      exact .inr (.inl ⟨i, by assumption, (roundSlot_eq_some _ _).mp hi, rfl⟩)
    · cases h
  · cases h; exact .inr (.inr (.inl ⟨by assumption, rfl⟩))
  · split at h
    · rename_i i m hi hm
      cases h
      exact .inr (.inr (.inr (.inl ⟨i, m, by assumption, (roundSlot_eq_some _ _).mp hi, hm, rfl⟩)))
    · cases h
  · cases h; exact .inr (.inr (.inr (.inr ⟨by assumption, rfl⟩)))

/-- A sequencer step leaves the host side, the inputs and the fault state alone (43_block_cipher.md R228 to R230). -/
theorem phaseStep_frame {s t : State} (h : phaseStep s = .next t) :
    t.env = s.env ∧ t.tbuf = s.tbuf ∧ t.key = s.key ∧ t.din = s.din ∧ t.keyw = s.keyw ∧ t.dinw = s.dinw ∧
      t.fault = s.fault ∧ t.cause = s.cause ∧ t.mode = s.mode := by
  rcases phaseStep_cases h with ⟨_, rfl⟩ | ⟨i, _, _, rfl⟩ | ⟨_, rfl⟩ | ⟨i, m, _, _, _, rfl⟩ | ⟨_, rfl⟩
  · exact ⟨rfl, rfl, rfl, rfl, rfl, rfl, rfl, rfl, rfl⟩
  · unfold State.stepKsRot
    split
    · exact ⟨rfl, rfl, rfl, rfl, rfl, rfl, rfl, rfl, rfl⟩
    · split <;> exact ⟨rfl, rfl, rfl, rfl, rfl, rfl, rfl, rfl, rfl⟩
  · exact ⟨rfl, rfl, rfl, rfl, rfl, rfl, rfl, rfl, rfl⟩
  · unfold State.stepRound
    split <;> exact ⟨rfl, rfl, rfl, rfl, rfl, rfl, rfl, rfl, rfl⟩
  · exact ⟨rfl, rfl, rfl, rfl, rfl, rfl, rfl, rfl, rfl⟩

theorem stepKsRot_between (s : State) (i : Fin 16) (h : i.val < 15) :
    s.stepKsRot i = (s.rotateAndSelect i).setSeq .ksRot (BitVec.ofNat 5 (i.val + 2)) := by
  rw [State.stepKsRot, if_pos h]

theorem stepKsRot_ends (s : State) (i : Fin 16) (h : ¬i.val < 15) (ho : s.op = .keysched) :
    s.stepKsRot i = { (s.rotateAndSelect i).endCommand with skv := true } := by
  rw [State.stepKsRot, if_neg h, if_pos ho]

theorem stepKsRot_goes_on (s : State) (i : Fin 16) (h : ¬i.val < 15) (ho : s.op ≠ .keysched) :
    s.stepKsRot i = { (s.rotateAndSelect i).setSeq .iperm 0#5 with skv := true } := by
  rw [State.stepKsRot, if_neg h, if_neg ho]

theorem stepRound_between (m : Mode) (s : State) (i : Fin 16) (h : i.val < 15) :
    s.stepRound m i = (s.runRound m i).setSeq .round (BitVec.ofNat 5 (i.val + 2)) := by
  rw [State.stepRound, if_pos h]

theorem stepRound_ends (m : Mode) (s : State) (i : Fin 16) (h : ¬i.val < 15) :
    s.stepRound m i = (s.runRound m i).setSeq .fperm 0#5 := by
  rw [State.stepRound, if_neg h]

/-! ### What a step can do -/

/-- The state as the next mover finds it differs from the present one on the host side only. -/
theorem hostTook_eq (rest : List HostAction) (s : State) : ∃ e, s.hostTook rest = { s with env := e } := by
  unfold State.hostTook
  split
  · exact ⟨_, rfl⟩
  · exact ⟨_, rfl⟩

/-- Every step (20_memory.md R70): a sequencer step while BUSY = 1, the next host action, or waiting. -/
theorem step_cases {s t : State} (h : step s = .next t) :
    (s.busy = true ∧ phaseStep s.sequencerTook = .next t) ∨
    (∃ e, HostEffect { s with env := e } t) ∨
    (s.busy = false ∧ s.env.script = [] ∧ t = s) := by
  unfold step oneAction at h
  split at h
  · rename_i hm
    simp only [State.sequencerMoves, Bool.and_eq_true] at hm
    exact .inl ⟨hm.1, h⟩
  · rename_i hm
    split at h
    · rename_i hs
      cases h
      refine .inr (.inr ⟨?_, hs, rfl⟩)
      simpa [State.sequencerMoves, hs] using hm
    · rename_i a rest hs
      obtain ⟨e, he⟩ := hostTook_eq rest s
      obtain ⟨u, hu, hf⟩ := hostAct_effect a (s.hostTook rest)
      rw [hu] at h
      cases h
      exact .inr (.inl ⟨e, he ▸ hf⟩)

/-- With no host action to come, the step of a busy CORE is the sequencer's. -/
theorem step_of_busy (s : State) (hb : s.busy = true) (he : s.env.script = []) :
    step s = phaseStep s.sequencerTook := by
  simp [step, oneAction, State.sequencerMoves, hb, he]

/-! ### Runs -/

theorem run_next (n : Nat) (s t : State) (h : step s = .next t) : core.run (n + 1) s = core.run n t := by
  simp only [Host.Core.run, show core.step s = .next t from h]

/-- A run is the run of its first part followed by the run of the rest. -/
theorem run_add (n m : Nat) (s t : State) (h : core.run n s = .next t) : core.run (n + m) s = core.run m t := by
  induction n generalizing s with
  | zero => cases h; simp
  | succ n ih =>
    rw [show n + 1 + m = n + m + 1 by omega]
    cases hs : core.step s with
    | next u =>
      rw [run_next _ _ _ hs] at h ⊢
      exact ih u h
    | fault r => simp only [Host.Core.run, hs] at h; cases h
    | refused r => simp only [Host.Core.run, hs] at h; cases h

end Sys2Proof.Machine
end

