-- ==== Sys2Proof/Laws/PerInstr.lean ====
section
/-! SUPPORT. A law of the instruction set per constructor: the encoded byte fits the command's row of
spec/opcode_table.json (30_encoding.md rule R94). -/

namespace Sys2Proof.Laws

/-- The `mask` of the command's row. -/
def rowMask : Instr → BitVec 8
  | .nop => 0xFF#8
  | .keysched => 0xFF#8
  | .enc => 0xFF#8
  | .dec => 0xFF#8
  | .ldhex _ => 0xFE#8
  | .ldbin _ => 0xFE#8
  | .sthex _ => 0xFC#8
  | .stbin _ => 0xFC#8
  | .srst => 0xFF#8

/-- The `match` of the command's row. -/
def rowPattern : Instr → BitVec 8
  | .nop => 0x00#8
  | .keysched => 0x10#8
  | .enc => 0x20#8
  | .dec => 0x30#8
  | .ldhex _ => 0x40#8
  | .ldbin _ => 0x50#8
  | .sthex _ => 0x60#8
  | .stbin _ => 0x70#8
  | .srst => 0xFF#8

/-- The encoded byte of a well-formed command matches its row, and the value written to CMD has no bit above it. -/
def EncodingFitsRow.Statement (i : Instr) : Prop :=
  i.wellFormed = true → encodeByte i &&& rowMask i = rowPattern i ∧ (encode i).toNat < 256

theorem EncodingFitsRow.nop : EncodingFitsRow.Statement .nop := fun _ => by decide
theorem EncodingFitsRow.keysched : EncodingFitsRow.Statement .keysched := fun _ => by decide
theorem EncodingFitsRow.enc : EncodingFitsRow.Statement .enc := fun _ => by decide
theorem EncodingFitsRow.dec : EncodingFitsRow.Statement .dec := fun _ => by decide
theorem EncodingFitsRow.ldhex (rd : DataReg) : EncodingFitsRow.Statement (.ldhex rd) := by
  cases rd <;> simp only [EncodingFitsRow.Statement] <;> decide
theorem EncodingFitsRow.ldbin (rd : DataReg) : EncodingFitsRow.Statement (.ldbin rd) := by
  cases rd <;> simp only [EncodingFitsRow.Statement] <;> decide
theorem EncodingFitsRow.sthex (rs : DataReg) : EncodingFitsRow.Statement (.sthex rs) := by
  cases rs <;> simp only [EncodingFitsRow.Statement] <;> decide
theorem EncodingFitsRow.stbin (rs : DataReg) : EncodingFitsRow.Statement (.stbin rs) := by
  cases rs <;> simp only [EncodingFitsRow.Statement] <;> decide
theorem EncodingFitsRow.srst : EncodingFitsRow.Statement .srst := fun _ => by decide

end Sys2Proof.Laws
end

