-- ==== Sys2Proof/Tests/Slice0.lean ====
section
/-! SUPPORT. Small tests with results from spec/ (the vector ids T<n> are those of 95_test_vectors.md), and for every
statement with hypotheses a state and operands that meet them. -/

namespace Sys2Proof.Tests

open Sys2Proof Sys2Proof.Machine

/-! ## Helpers -/

/-- What `f` reads in the state an outcome gives, if it gives one. -/
def after {α : Type} (o : Host.Outcome State Fault Refusal) (f : State → α) : Option α :=
  match o with
  | .next s => some (f s)
  | .fault _ => none
  | .refused _ => none

/-- The key, the plaintext and the ciphertext of T1. -/
def keyT1 : Word64 := 0x133457799BBCDFF1#64
def plainT1 : Word64 := 0x0123456789ABCDEF#64
def cipherT1 : Word64 := 0x85E813540F0AB405#64

/-- Reset, then `wr KEY, K`; and then `wr DIN, P`; and then a finished schedule. -/
def keyed : State := State.reset.writeKey keyT1
def loaded : State := keyed.writeDin plainT1
def scheduled : State := { loaded with sk := keySchedule keyT1, skv := true }

/-- A faulted state, and states in each phase of a command. -/
def faulted : State := State.reset.raiseFault .illegalCmd
def inKsPc1 : State := keyed.beginCommand .keysched .ksPc1
def inKsRot : State := inKsPc1.stepKsPc1
def inKsRotLast : State := { inKsPc1 with
  c := (halvesAfter keyT1 15).1, d := (halvesAfter keyT1 15).2, sk := keySchedule keyT1, phase := .ksRot, rnd := 16#5 }
def inIperm : State := { scheduled.beginCommand .enc .iperm with trv := 0#16 }
def inRound : State := inIperm.stepIperm
def inRoundLast : State := { inIperm with
  l := (inIperm.blockHalves .enc 15).1, r := (inIperm.blockHalves .enc 15).2
  tr := (cipherBlock .enc plainT1 keyT1).trace.set 15 TraceRecord.zero
  trv := 0x7FFF#16, phase := .round, rnd := 16#5 }
def inFperm : State := { inIperm with
  l := (inIperm.blockHalves .enc 16).1, r := (inIperm.blockHalves .enc 16).2
  tr := (cipherBlock .enc plainT1 keyT1).trace, trv := 0xFFFF#16, phase := .fperm, rnd := 0#5 }

/-- The host side with these actions to come. -/
def host (script : List HostAction) : HostSide := { HostSide.initial with script := script }

/-- A state whose text buffer holds the character codes `t`. -/
def withText (t : List Byte) : State := State.reset.putText t

/-- The 16 characters of T30, "133457799BBCDFF1", and of T34, "0x133457799BBCDF". -/
def hexTextT30 : List Byte :=
  [0x31#8, 0x33#8, 0x33#8, 0x34#8, 0x35#8, 0x37#8, 0x37#8, 0x39#8, 0x39#8, 0x42#8, 0x42#8, 0x43#8, 0x44#8, 0x46#8,
    0x46#8, 0x31#8]
def hexTextT34 : List Byte :=
  [0x30#8, 0x78#8, 0x31#8, 0x33#8, 0x33#8, 0x34#8, 0x35#8, 0x37#8, 0x37#8, 0x39#8, 0x39#8, 0x42#8, 0x42#8, 0x43#8,
    0x44#8, 0x46#8]

/-- The 64 characters of T21: a one, 62 zeros, a one. -/
def binTextT21 : List Byte := [0x31#8] ++ List.replicate 62 0x30#8 ++ [0x31#8]

/-! ## Well-formedness: each check refuses its ill-formed term -/

theorem test_wellFormed_ldhex_dout : (Instr.ldhex .dout).wellFormed = false := by decide
theorem test_wellFormed_ldbin_dout : (Instr.ldbin .dout).wellFormed = false := by decide
theorem test_wellFormed_legal : (Instr.ldhex .key).wellFormed = true ∧ (Instr.ldbin .din).wellFormed = true ∧
    (Instr.sthex .dout).wellFormed = true ∧ (Instr.stbin .dout).wellFormed = true := by decide

/-! ## Decoding: bytes written out as op[3:0] and the field below it (30_encoding.md R91 to R94) -/

theorem test_decode_nop : decode (BitVec.setWidth 64 0b0000_0000#8) = .ok .nop := by decide
theorem test_decode_keysched : decode (BitVec.setWidth 64 0b0001_0000#8) = .ok .keysched := by decide
theorem test_decode_enc : decode (BitVec.setWidth 64 0b0010_0000#8) = .ok .enc := by decide
theorem test_decode_dec : decode (BitVec.setWidth 64 0b0011_0000#8) = .ok .dec := by decide
theorem test_decode_ldhex : decode (BitVec.setWidth 64 0b0100_00_00#8) = .ok (.ldhex .key) ∧
    decode (BitVec.setWidth 64 0b0100_00_01#8) = .ok (.ldhex .din) := by decide
theorem test_decode_ldbin : decode (BitVec.setWidth 64 0b0101_00_00#8) = .ok (.ldbin .key) ∧
    decode (BitVec.setWidth 64 0b0101_00_01#8) = .ok (.ldbin .din) := by decide
theorem test_decode_sthex : decode (BitVec.setWidth 64 0b0110_00_00#8) = .ok (.sthex .key) ∧
    decode (BitVec.setWidth 64 0b0110_00_01#8) = .ok (.sthex .din) ∧
    decode (BitVec.setWidth 64 0b0110_00_10#8) = .ok (.sthex .dout) := by decide
theorem test_decode_stbin : decode (BitVec.setWidth 64 0b0111_00_00#8) = .ok (.stbin .key) ∧
    decode (BitVec.setWidth 64 0b0111_00_01#8) = .ok (.stbin .din) ∧
    decode (BitVec.setWidth 64 0b0111_00_10#8) = .ok (.stbin .dout) := by decide
theorem test_decode_srst : decode (BitVec.setWidth 64 0b1111_1111#8) = .ok .srst := by decide

/-- T132 to T137: reserved, illegal and near-miss values. -/
theorem test_decode_illegal : decode 0x01#64 = .error .nonzeroField ∧ decode 0x24#64 = .error .nonzeroField ∧
    decode 0x42#64 = .error .illegalRegister ∧ decode 0x63#64 = .error .illegalRegister ∧
    decode 0x44#64 = .error .nonzeroField ∧ decode 0x80#64 = .error .reservedOp ∧ decode 0xFE#64 = .error .nonzeroField ∧
    decode 0x120#64 = .error .highBits ∧ decode 0x1FF#64 = .error .highBits := by decide

/-! ## One step -/

/-- T115. -/
theorem test_nop_ready : after (exec .nop State.reset) (·.status) = some 0x0000#16 := by decide
/-- T130: NOP is a write like any other while BUSY = 1. -/
theorem test_nop_busy : after (exec .nop inRound) (fun t => (t.status, t.seq)) = some (0x023C#16, 0x0000#16) := by
  decide +kernel
/-- T123. -/
theorem test_keysched_accepted : after (exec .keysched keyed) (fun t => (t.status, t.seq)) =
    some (0x0009#16, 0x0101#16) := by decide
/-- T120. -/
theorem test_keysched_no_key : after (exec .keysched State.reset) (·.status) = some 0x0420#16 := by decide
/-- T125. -/
theorem test_enc_accepted : after (exec .enc loaded) (fun t => (t.status, t.seq)) = some (0x0019#16, 0x0201#16) := by
  decide
/-- T122. -/
theorem test_enc_no_data : after (exec .enc keyed) (·.status) = some 0x0528#16 := by decide
/-- With SKV = 1 a block command starts at IPERM; MODE is set (43_block_cipher.md R227). -/
theorem test_dec_accepted : after (exec .dec scheduled) (fun t => (t.status, t.seq)) =
    some (0x005D#16, 0x0303#16) := by decide +kernel
/-- T121: NO_KEY before NO_DATA, MODE not set. -/
theorem test_dec_no_key : after (exec .dec (State.reset.writeDin 1#64)) (·.status) = some 0x0430#16 := by decide
/-- T30. -/
theorem test_ldhex_key : after (exec (.ldhex .key) (withText hexTextT30)) (fun t => (t.key, t.status)) =
    some (0x133457799BBCDFF1#64, 0x0008#16) := by decide +kernel
/-- T34. -/
theorem test_ldhex_encoding : after (exec (.ldhex .key) (withText hexTextT34)) (fun t => (t.key, t.status)) =
    some (0#64, 0x0620#16) := by decide +kernel
/-- T21 as a load of DIN. -/
theorem test_ldbin_din : after (exec (.ldbin .din) (withText binTextT21)) (fun t => (t.din, t.status)) =
    some (0x8000000000000001#64, 0x0010#16) := by decide +kernel
/-- T36: the last character missing. -/
theorem test_ldbin_encoding : after (exec (.ldbin .din) (withText (List.replicate 63 0x30#8))) (·.status) =
    some 0x0620#16 := by decide +kernel
/-- T37. -/
theorem test_sthex_dout : after (exec (.sthex .dout) State.reset) (fun t => (hostRead 0x040#12 t, hostRead 0x042#12 t)) =
    some (0x3030303030303030#64, 0#64) := by decide +kernel
/-- T19: a leading zero kept, upper case. -/
theorem test_sthex_din : after (exec (.sthex .din) (State.reset.writeDin 0x0A4CD99543423234#64))
    (fun t => (hostRead 0x040#12 t, hostRead 0x041#12 t)) =
    some (0x3041344344393935#64, 0x3433343233323334#64) := by decide +kernel
/-- T38. -/
theorem test_stbin_din : after (exec (.stbin .din) (State.reset.writeDin plainT1))
    (fun t => (hostRead 0x040#12 t, hostRead 0x047#12 t)) =
    some (0x3030303030303031#64, 0x3131313031313131#64) := by decide +kernel
/-- T146. -/
theorem test_srst_faulted : after (exec .srst faulted) (·.status) = some 0x0000#16 := by decide
/-- T131. -/
theorem test_srst_busy : after (exec .srst inKsPc1) (fun t => (t.status, t.key, t.phase)) =
    some (0x0000#16, 0#64, .idle) := by decide

/-- T138 to T144: writes to read-only and reserved indexes. -/
theorem test_bad_addr :
    after (hostWrite 0x001#12 0#64 State.reset) (·.status) = some 0x0320#16 ∧
    after (hostWrite 0x006#12 0#64 State.reset) (·.status) = some 0x0320#16 ∧
    after (hostWrite 0x009#12 0#64 State.reset) (·.status) = some 0x0320#16 ∧
    after (hostWrite 0x010#12 0#64 State.reset) (·.status) = some 0x0320#16 ∧
    after (hostWrite 0x048#12 0#64 State.reset) (·.status) = some 0x0320#16 ∧
    after (hostWrite 0x100#12 0#64 State.reset) (·.status) = some 0x0320#16 ∧
    after (hostWrite 0xFFF#12 0#64 State.reset) (·.status) = some 0x0320#16 := by
  decide +kernel
/-- T149. -/
theorem test_tbuf_word : after (hostWrite 0x043#12 0x1122334455667788#64 State.reset)
    (fun t => (memGet t.tbuf 24, memGet t.tbuf 31, memGet t.tbuf 23, memGet t.tbuf 32)) =
    some (0x11#8, 0x88#8, 0x00#8, 0x00#8) := by decide +kernel

/-- T60, the first two steps of KEYSCHED: SEQ and CD. -/
theorem test_ks_pc1 : after (phaseStep inKsPc1) (fun t => (t.seq, hostRead 0x008#12 t)) =
    some (0x010A#16, 0x00F0CCAAF556678F#64) := by decide +kernel
theorem test_ks_rot : after (phaseStep inKsRot) (fun t => (t.seq, hostRead 0x008#12 t, t.sk[0])) =
    some (0x0112#16, 0x00E19955FAACCF1E#64, 0x1B02EFFC7072#48) := by decide +kernel
/-- T60, the last step. -/
theorem test_ks_rot_last : after (phaseStep inKsRotLast) (fun t => (t.status, t.seq, hostRead 0x008#12 t, t.sk[15])) =
    some (0x000E#16, 0x0000#16, 0x00F0CCAAF556678F#64, 0xCB3D8B0E17F5#48) := by decide +kernel
/-- T97: IPERM of the block of T1. -/
theorem test_iperm : after (phaseStep inIperm) (fun t => (t.seq, hostRead 0x007#12 t)) =
    some (0x020C#16, 0xCC00CCFFF0AAF0AA#64) := by decide +kernel
/-- T1, round 1: the halves, TRV, and three words of TR[1]. -/
theorem test_round : after (phaseStep inRound) (fun t =>
      (hostRead 0x007#12 t, t.trv, hostRead 0x100#12 t, hostRead 0x104#12 t, hostRead 0x108#12 t)) =
    some (0xF0AAF0AAEF4A6544#64, 0x0001#16, 0x01001B02EFFC7072#64, 0x01180C050211180C#64, 0x234AA9BB00000000#64) := by
  decide +kernel
/-- T1, round 16: the halves, TRV, and the last word of TR[16]. -/
theorem test_round_last : after (phaseStep inRoundLast) (fun t =>
      (hostRead 0x007#12 t, t.trv, t.seq, hostRead 0x1F9#12 t)) =
    some (0x434232340A4CD995#64, 0xFFFF#16, 0x0205#16, 0x434232340A4CD995#64) := by decide +kernel
/-- T1, FPERM. -/
theorem test_fperm : after (phaseStep inFperm) (fun t => (t.dout, t.status, t.seq)) =
    some (0x85E813540F0AB405#64, 0x001E#16, 0x0000#16) := by decide +kernel

/-! ## The functions -/

/-- T10 and T12. -/
theorem test_bytes : bytesToBits 8 [0x01#8, 0x23#8, 0x45#8, 0x67#8, 0x89#8, 0xAB#8, 0xCD#8, 0xEF#8] = plainT1 ∧
    bitsToBytes 8 cipherT1 = [0x85#8, 0xE8#8, 0x13#8, 0x54#8, 0x0F#8, 0x0A#8, 0xB4#8, 0x05#8] := by decide +kernel
/-- T13, T14 and T15. -/
theorem test_hex_digits : hexVal 0x39#8 = some 9#4 ∧ hexVal 0x46#8 = some 15#4 ∧ hexVal 0x61#8 = some 10#4 ∧
    hexVal 0x2F#8 = none ∧ hexVal 0x3A#8 = none ∧ hexVal 0x40#8 = none ∧ hexVal 0x47#8 = none ∧ hexVal 0x60#8 = none ∧
    hexVal 0x67#8 = none ∧ hexChar 9#4 = 0x39#8 ∧ hexChar 10#4 = 0x41#8 := by decide
/-- The rotation corners of T50 to T58. -/
theorem test_rotl28 : rotl28 0x8000000#28 1 = 0x0000001#28 ∧ rotl28 0xC000000#28 2 = 0x0000003#28 ∧
    rotl28 0xF0CCAAF#28 1 = 0xE19955F#28 := by decide
/-- T56: key position 1 alone, a bit of every kind of table. -/
theorem test_key_position_one : (keySchedule 0x8000000000000000#64)[0] = 0x000010000000#48 ∧
    (keySchedule 0x8000000000000000#64)[15] = 0x000040000000#48 := by decide +kernel
/-- T90. -/
theorem test_round_transform : (roundTransform 0x12345678#32 0x9ABCDEF0#32 0x0F0F0F0F0F0F#48 1#8).right =
    0x2762652A#32 := by decide +kernel
/-- T94 and T99. -/
theorem test_ip_fp : initialPermutation 0x8000000000000000#64 = 0x0000000001000000#64 ∧
    finalPermutation 0xAAAAAAAAAAAAAAAA#64 = 0x00FF00FF00FF00FF#64 := by decide +kernel
/-- T1: the source's known-answer vector. -/
theorem test_known_answer : (encryptBlock plainT1 keyT1).output = 0x85E813540F0AB405#64 := by decide +kernel
/-- T2. -/
theorem test_known_answer_decrypted : (decryptBlock cipherT1 keyT1).output = 0x0123456789ABCDEF#64 := by decide +kernel
/-- T113: a vector the spec compared with an independent library. -/
theorem test_library_vector : (encryptBlock 0xE512148239292D22#64 0xE255ACCB1A466884#64).output =
    0x43F31FB86BF7B41D#64 := by decide +kernel
/-- The poll of STATUS repeats itself while BUSY = 1 (30_encoding.md R98). -/
theorem test_wait : after (hostAct .wait inKsPc1) (fun t => (t.env.script, t.env.reads)) =
      some ([.wait], [(0x001#12, 0x0009#64)]) ∧
    after (hostAct .wait keyed) (fun t => (t.env.script, t.env.reads)) = some ([], [(0x001#12, 0x0008#64)]) := by
  decide +kernel
/-- T30's script line: two writes (30_encoding.md R99). -/
theorem test_txt : expandLine (.txt hexTextT30) =
    [.write 0x040#12 0x3133333435373739#64, .write 0x041#12 0x3942424344464631#64] := by decide +kernel

/-! ## Witnesses: states and operands that meet the hypotheses of the statements -/

theorem ready_reset : State.reset.ready := ⟨rfl, rfl⟩
theorem ready_keyed : keyed.ready := ⟨rfl, rfl⟩
theorem ready_loaded : loaded.ready := ⟨rfl, rfl⟩
theorem ready_scheduled : scheduled.ready := ⟨rfl, rfl⟩

/-- For KeyschedDerivesTheSchedule, EncRunsToTheBlockResult and DecRunsToTheBlockResult: each clause, and the premise on
the subkey file in both cases of SKV. -/
theorem witness_runs :
    (keyed.ready ∧ keyed.env.script = [] ∧ keyed.keyw = true) ∧
    (State.reset.ready ∧ State.reset.env.script = [] ∧ State.reset.keyw = false) ∧
    (keyed.ready ∧ keyed.env.script = [] ∧ (keyed.skv = true → keyed.subkeysCurrent) ∧ keyed.keyw = true ∧
      keyed.dinw = false) ∧
    (loaded.ready ∧ loaded.env.script = [] ∧ (loaded.skv = true → loaded.subkeysCurrent) ∧ loaded.keyw = true ∧
      loaded.dinw = true ∧ loaded.skv = false) ∧
    (scheduled.ready ∧ scheduled.env.script = [] ∧ (scheduled.skv = true → scheduled.subkeysCurrent) ∧
      scheduled.keyw = true ∧ scheduled.dinw = true ∧ scheduled.skv = true) := by
  refine ⟨⟨⟨rfl, rfl⟩, rfl, rfl⟩, ⟨⟨rfl, rfl⟩, rfl, rfl⟩, ⟨⟨rfl, rfl⟩, rfl, fun h => ?_, rfl, rfl⟩,
    ⟨⟨rfl, rfl⟩, rfl, fun h => ?_, rfl, rfl, rfl⟩, ⟨⟨rfl, rfl⟩, rfl, fun _ => rfl, rfl, rfl, rfl⟩⟩
  · cases h
  · cases h

theorem witness_DecodeFollowsTheMap : (0x120#64).extractLsb' 8 56 ≠ 0#56 ∧ (0xFF#64).extractLsb' 8 56 = 0#56 ∧
    decode 0x43#64 = .error .illegalRegister ∧ State.reset.ready := ⟨by decide, by decide, by decide, ready_reset⟩

theorem witness_DecodeIsTheInverseOfEncode : decode 0x72#64 = .ok (.stbin .dout) ∧
    (Instr.stbin .dout).wellFormed = true ∧ encode (.stbin .dout) = 0x72#64 := by decide

theorem witness_ReservedCommandsFault : State.reset.ready ∧
    0x01#64 ∉ [0x00#64, 0x10#64, 0x20#64, 0x30#64, 0x40#64, 0x41#64, 0x50#64, 0x51#64, 0x60#64, 0x61#64, 0x62#64, 0x70#64,
      0x71#64, 0x72#64, 0xFF#64] ∧
    0x100#64 ∉ [0x00#64, 0x10#64, 0x20#64, 0x30#64, 0x40#64, 0x41#64, 0x50#64, 0x51#64, 0x60#64, 0x61#64, 0x62#64, 0x70#64,
      0x71#64, 0x72#64, 0xFF#64] := ⟨ready_reset, by simp, by simp⟩

/-- The host is the one to move in an idle state, and in a busy one in which it has one action left. -/
theorem witness_StepRunsTheDecodedCommand :
    (({ State.reset with env := host [.write 0x000#12 0x10#64] } : State).env.script = .write 0x000#12 0x10#64 :: [] ∧
      decode 0x10#64 = .ok .keysched ∧ State.reset.busy = false) ∧
    (let s : State := { inKsPc1 with env := { host [.write 0x000#12 0xFF#64] with slots := some 1 } };
      s.env.script = .write 0x000#12 0xFF#64 :: [] ∧ decode 0xFF#64 = .ok .srst ∧ s.busy = true ∧ s.hostBudget ≠ 0) := by
  refine ⟨⟨rfl, by decide, rfl⟩, rfl, by decide, rfl, ?_⟩
  simp [State.hostBudget]

theorem witness_PlacedCommandRunsNext : decodeTableWord 8 0x10 = some .keysched ∧
    decodeTableWord 8 0xFF = some .srst ∧ decodeTableWord 8 0x42 = none := by decide

/-- For HostReadTable and ReservedAndReadOnlyIndexes: the boundary indexes of every range, and that no index stands in
both. -/
theorem witness_reserved_indexes :
    reservedIndex 0x009#12 ∧ reservedIndex 0x00F#12 ∧ reservedIndex 0x020#12 ∧ reservedIndex 0x03F#12 ∧
    reservedIndex 0x048#12 ∧ reservedIndex 0x0FF#12 ∧ reservedIndex 0x10A#12 ∧ reservedIndex 0x10F#12 ∧
    reservedIndex 0x1FA#12 ∧ reservedIndex 0x1FF#12 ∧ reservedIndex 0x200#12 ∧ reservedIndex 0xFFF#12 := by
  and_intros <;> decide
theorem witness_read_only_indexes :
    readOnlyIndex 0x001#12 ∧ readOnlyIndex 0x003#12 ∧ readOnlyIndex 0x006#12 ∧ readOnlyIndex 0x008#12 ∧
    readOnlyIndex 0x010#12 ∧ readOnlyIndex 0x01F#12 ∧ readOnlyIndex 0x100#12 ∧ readOnlyIndex 0x109#12 ∧
    readOnlyIndex 0x110#12 ∧ readOnlyIndex 0x1F0#12 ∧ readOnlyIndex 0x1F9#12 := by
  and_intros <;> decide
theorem witness_ranges_do_not_overlap :
    ¬reservedIndex 0x001#12 ∧ ¬reservedIndex 0x003#12 ∧ ¬reservedIndex 0x006#12 ∧ ¬reservedIndex 0x008#12 ∧
    ¬reservedIndex 0x010#12 ∧ ¬reservedIndex 0x01F#12 ∧ ¬reservedIndex 0x100#12 ∧ ¬reservedIndex 0x109#12 ∧
    ¬reservedIndex 0x110#12 ∧ ¬reservedIndex 0x1F0#12 ∧ ¬reservedIndex 0x1F9#12 ∧ ¬reservedIndex 0x000#12 ∧
    ¬reservedIndex 0x004#12 ∧ ¬reservedIndex 0x005#12 ∧ ¬reservedIndex 0x040#12 ∧ ¬reservedIndex 0x047#12 := by
  and_intros <;> decide

/-- One state and index for each line of HostWriteOrder. -/
theorem witness_HostWriteOrder :
    (faulted.fault = true) ∧ (inKsPc1.fault = false ∧ inKsPc1.busy = true) ∧
    (State.reset.ready ∧ reservedIndex 0x009#12 ∧ readOnlyIndex 0x001#12) ∧
    (¬(reservedIndex 0x000#12 ∨ readOnlyIndex 0x000#12) ∧ ¬(reservedIndex 0x004#12 ∨ readOnlyIndex 0x004#12) ∧
    ¬(reservedIndex 0x005#12 ∨ readOnlyIndex 0x005#12) ∧ ¬(reservedIndex 0x040#12 ∨ readOnlyIndex 0x040#12) ∧
    ¬(reservedIndex 0x047#12 ∨ readOnlyIndex 0x047#12)) :=
  ⟨rfl, ⟨rfl, rfl⟩, ⟨ready_reset, by decide, by decide⟩, by and_intros <;> decide⟩

/-- For TbufWordsAreBigEndian, SthexStoresSixteenDigits and StbinStoresSixtyFourBits: a buffer that holds something. -/
theorem witness_buffer : (withText hexTextT30).ready ∧ (withText hexTextT30).tbuf.wf ∧
    memGet (withText hexTextT30).tbuf 15 = 0x31#8 := ⟨⟨rfl, rfl⟩, by decide +kernel, by decide +kernel⟩

theorem witness_WriteWhileBusyAbandons : inKsPc1.busy = true ∧ inKsPc1.fault = false ∧
    ¬(0x000#12 = 0x000#12 ∧ (0x00#64 : Word64) = 0xFF#64) ∧ ¬(0x004#12 = 0x000#12 ∧ (0xFF#64 : Word64) = 0xFF#64) := by
  decide

theorem faulted_controlLegal (e : HostSide) : ({ faulted with env := e } : State).ControlLegal := by
  refine ⟨⟨rfl, rfl, rfl⟩, ⟨?_, ?_, ?_, ?_, ?_, ?_, ?_, ?_, ?_, ?_⟩, trivial⟩ <;>
    simp [faulted, State.raiseFault, State.reset]

/-- For FaultedStateIsFrozen and OnlyResetLeavesTheFault: a faulted state whose host writes KEY next, and one whose host
resets next. -/
theorem witness_faulted :
    (let s : State := { faulted with env := host [.write 0x004#12 5#64] };
      s.ControlLegal ∧ s.fault = true ∧ (∀ a, s.env.script.head? = some a → ¬a.resets) ∧ ∃ t, step s = .next t) ∧
    (let s : State := { faulted with env := host [.reset] };
      s.ControlLegal ∧ s.fault = true ∧ s.env.script.head? = some .reset ∧ HostAction.reset.resets ∧
        ∃ t, step s = .next t) := by
  refine ⟨⟨faulted_controlLegal _, rfl, fun a h => ?_, _, rfl⟩, faulted_controlLegal _, rfl, rfl, trivial, _, rfl⟩
  cases h
  simp [HostAction.resets]

theorem witness_MissingInputsFault : (State.reset.ready ∧ State.reset.keyw = false) ∧
    (keyed.ready ∧ keyed.keyw = true ∧ keyed.dinw = false) := ⟨⟨ready_reset, rfl⟩, ready_keyed, rfl, rfl⟩

theorem witness_HexDigits : (∀ c ∈ [0x2F#8, 0x3A#8, 0x40#8, 0x47#8, 0x60#8, 0x67#8],
      ¬(0x30 ≤ c.toNat ∧ c.toNat ≤ 0x39) ∧ ¬(0x41 ≤ c.toNat ∧ c.toNat ≤ 0x46) ∧ ¬(0x61 ≤ c.toNat ∧ c.toNat ≤ 0x66)) ∧
    (9#4).toNat ≤ 9 ∧ 10 ≤ (10#4).toNat := by decide

theorem witness_ConversionRoundTrips : [0x80#8, 0x01#8].length = 2 ∧
    hexToBits 2 [0x61#8, 0x46#8] = some 0xAF#8 ∧ binToBits 2 [0x31#8, 0x30#8] = some 0b10#2 ∧
    [0x31#8, 0x32#8, 0x33#8].length % 2 = 1 ∧
    hexToBytes 2 [0x31#8, 0x32#8, 0x61#8, 0x46#8] = some [0x12#8, 0xAF#8] := by decide +kernel

/-- 40_conversion.md R115: a text of odd length has no byte form, neither padded nor cut. -/
theorem test_hexToBytes_odd : hexToBytes 1 [0x31#8] = none ∧ hexToBytes 1 [0x31#8, 0x32#8, 0x33#8] = none ∧
    hexToBytes 2 [0x31#8, 0x32#8, 0x33#8] = none ∧ hexToBytes 0 [0x31#8] = none := by decide +kernel

/-- Sixteen digits, and a buffer with a character that is none. -/
theorem witness_LdhexLoadsSixteenDigits :
    ((withText hexTextT30).ready ∧ ∀ k : Fin 16, hexVal (memGet (withText hexTextT30).tbuf k.val) =
      some (keyT1.extractLsb' (60 - 4 * k.val) 4)) ∧
    ((withText hexTextT34).ready ∧ ∃ k : Fin 16, hexVal (memGet (withText hexTextT34).tbuf k.val) = none) :=
  ⟨⟨⟨rfl, rfl⟩, by decide +kernel⟩, ⟨rfl, rfl⟩, 1, by decide +kernel⟩

/-- Sixty-four characters, and a buffer whose last character is neither. -/
theorem witness_LdbinLoadsSixtyFourBits :
    ((withText binTextT21).ready ∧ ∀ k : Fin 64, memGet (withText binTextT21).tbuf k.val =
      if (0x8000000000000001#64).getMsbD k.val then 0x31#8 else 0x30#8) ∧
    ((withText (List.replicate 63 0x30#8)).ready ∧ ∃ k : Fin 64,
      memGet (withText (List.replicate 63 0x30#8)).tbuf k.val ≠ 0x30#8 ∧
      memGet (withText (List.replicate 63 0x30#8)).tbuf k.val ≠ 0x31#8) :=
  ⟨⟨⟨rfl, rfl⟩, by decide +kernel⟩, ⟨rfl, rfl⟩, 63, by decide +kernel⟩

theorem witness_NopDoesNothing : State.reset.ready ∧ faulted.fault = true ∧
    (inKsPc1.fault = false ∧ inKsPc1.busy = true) := ⟨ready_reset, rfl, rfl, rfl⟩

/-- A command on a buffer that holds something. -/
theorem witness_CommandFrames : ((withText hexTextT30).tbuf.wf ∧
    ∃ t, exec (.ldhex .key) (withText hexTextT30) = .next t) ∧ State.reset.ready :=
  ⟨⟨by decide +kernel, _, rfl⟩, ready_reset⟩

/-- The number of rotations at both ends. -/
theorem witness_RotationsAccumulate : 0 ≤ 16 ∧ 16 ≤ 16 := by decide

/-- Two keys that differ in their parity bits only (T51, T53). -/
theorem witness_ParityBitsHaveNoEffect : (0#64 : Word64) ≠ 0x0101010101010101#64 ∧
    (0#64 : Word64) &&& 0xFEFEFEFEFEFEFEFE#64 = 0x0101010101010101#64 &&& 0xFEFEFEFEFEFEFEFE#64 := by decide +kernel

/-- For KsPc1Step, KsRotStep, IpermStep, RoundStep and FpermStep: each phase, RND at both ends, both ends of the
schedule. -/
theorem witness_phases : inKsPc1.phase = .ksPc1 ∧
    (inKsRot.phase = .ksRot ∧ inKsRot.rnd = BitVec.ofNat 5 ((0 : Fin 16).val + 1)) ∧
    (inKsRotLast.phase = .ksRot ∧ inKsRotLast.rnd = BitVec.ofNat 5 ((15 : Fin 16).val + 1) ∧
      inKsRotLast.op = .keysched) ∧
    (let s : State := { inKsRotLast with op := .enc };
      s.phase = .ksRot ∧ s.rnd = BitVec.ofNat 5 ((15 : Fin 16).val + 1) ∧ s.op ≠ .keysched) ∧
    inIperm.phase = .iperm ∧
    (inRound.phase = .round ∧ inRound.rnd = BitVec.ofNat 5 ((0 : Fin 16).val + 1) ∧ inRound.op = .enc) ∧
    (inRoundLast.phase = .round ∧ inRoundLast.rnd = BitVec.ofNat 5 ((15 : Fin 16).val + 1) ∧ inRoundLast.op = .enc) ∧
    inFperm.phase = .fperm := by
  refine ⟨rfl, ⟨rfl, rfl⟩, ⟨rfl, rfl, rfl⟩, ⟨rfl, rfl, ?_⟩, rfl, ⟨rfl, rfl, rfl⟩, ⟨rfl, rfl, rfl⟩, rfl⟩
  decide

/-- For KeyschedIsAccepted and BlockCommandsAreAccepted, in both cases of SKV. -/
theorem witness_acceptance : (keyed.ready ∧ keyed.keyw = true) ∧
    (loaded.ready ∧ loaded.keyw = true ∧ loaded.dinw = true) ∧
    (scheduled.ready ∧ scheduled.keyw = true ∧ scheduled.dinw = true ∧ scheduled.skv = true) :=
  ⟨⟨ready_keyed, rfl⟩, ⟨ready_loaded, rfl, rfl⟩, ready_scheduled, rfl, rfl, rfl⟩

/-- For ExpandSelectsAndIsInjective and PpermSelectsAndIsBijective: equal values. -/
theorem witness_injective : expand 0xF0AAF0AA#32 = expand (0xF0AA0000#32 ||| 0x0000F0AA#32) ∧
    pperm 0x80000001#32 = pperm (0x80000000#32 ||| 0x00000001#32) := by decide +kernel

theorem inKsPc1_controlLegal : inKsPc1.ControlLegal := by
  refine ⟨⟨rfl, rfl, by decide⟩, ⟨?_, ?_, ?_, ?_, ?_, ?_, ?_, ?_, ?_, ?_⟩, rfl⟩ <;>
    simp [inKsPc1, keyed, State.beginCommand, State.writeKey, State.reset]

theorem inFperm_controlLegal : inFperm.ControlLegal := by
  refine ⟨⟨rfl, rfl, .inl rfl⟩, ⟨?_, ?_, ?_, ?_, ?_, ?_, ?_, ?_, ?_, ?_⟩, rfl⟩ <;>
    simp [inFperm, inIperm, scheduled, loaded, keyed, State.beginCommand, State.writeKey, State.writeDin, State.reset]

theorem inRound_controlLegal : inRound.ControlLegal := by
  refine ⟨⟨rfl, by decide, .inl rfl⟩, ⟨?_, ?_, ?_, ?_, ?_, ?_, ?_, ?_, ?_, ?_⟩, rfl⟩ <;>
    simp [inRound, inIperm, scheduled, loaded, keyed, State.beginCommand, State.writeKey, State.writeDin, State.reset,
      State.stepIperm]

theorem inFperm_workLegal : inFperm.WorkLegal := by
  refine ⟨fun _ => rfl, fun h => ?_, fun m h => ?_, fun m _ hm => ?_⟩
  · cases h
  · cases h
  · cases m with
    | enc => exact ⟨rfl, fun i _ => rfl⟩
    | dec => cases hm

theorem inRound_workLegal : inRound.WorkLegal := by
  have h0 : inRound.rnd.toNat - 1 = 0 := rfl
  refine ⟨fun _ => rfl, fun h => ?_, fun m _ _ => ?_, fun m h => ?_⟩
  · cases h
  · rw [h0]
    refine ⟨?_, fun i hi => absurd hi (Nat.not_lt_zero _)⟩
    rw [State.blockHalves, halvesAfterRounds]
    have hd : inRound.din = inIperm.din := rfl
    rw [hd]
    rfl
  · cases h

theorem inFperm_traceLegal : inFperm.TraceLegal := by
  refine ⟨fun i => ⟨fun h => ?_, fun _ => ?_⟩, rfl⟩
  · have : ∀ i : Fin 16, (0xFFFF#16).getLsbD i.val = true := by decide
    exact absurd ((this i).symm.trans h) (by decide)
  · simp [inFperm, cipherBlock, roundTransform, roundTrace]

/-- For StepKeepsControlLegal, StepKeepsTraceLegal, StepKeepsWorkLegal, StepKeepsMemoryCanonical and
LegalMachineNeverStops: states in the middle of a command that meet the invariants, and the step they take. -/
theorem witness_invariants :
    (inKsPc1.ControlLegal ∧ ∃ t, step inKsPc1 = .next t) ∧
    (inFperm.ControlLegal ∧ inFperm.TraceLegal ∧ inFperm.WorkLegal ∧ ∃ t, step inFperm = .next t) ∧
    (inRound.ControlLegal ∧ inRound.WorkLegal ∧ ∃ t, step inRound = .next t) ∧
    ((withText hexTextT30).tbuf.wf ∧ ∃ t, step (withText hexTextT30) = .next t) :=
  ⟨⟨inKsPc1_controlLegal, _, rfl⟩, ⟨inFperm_controlLegal, inFperm_traceLegal, inFperm_workLegal, _, rfl⟩,
    ⟨inRound_controlLegal, inRound_workLegal, _, rfl⟩, by decide +kernel, _, rfl⟩

theorem witness_FinishingStepWritesTheBlockResult : inFperm.WorkLegal ∧ inFperm.phase = .fperm ∧
    blockMode inFperm.op = some .enc := ⟨inFperm_workLegal, rfl, rfl⟩

/-- A run from reset that reaches SKV = 1: two writes by the host, then the seventeen steps of KEYSCHED. -/
theorem witness_ReachableSubkeysAreCurrent : after
    (core.run 19 ({ State.reset with env := host [.write 0x004#12 keyT1, .write 0x000#12 0x10#64] } : State))
    (fun t => (t.skv, t.sk[15])) = some (true, 0xCB3D8B0E17F5#48) := by decide +kernel

theorem witness_StepCounts :
    (keyed.ready ∧ keyed.keyw = true ∧ ∃ a, exec .keysched keyed = .next a) ∧
    (loaded.ready ∧ loaded.keyw = true ∧ loaded.dinw = true ∧ ∃ a, exec .enc loaded = .next a) ∧
    (scheduled.ready ∧ scheduled.keyw = true ∧ scheduled.dinw = true ∧ ∃ a, exec .dec scheduled = .next a) ∧
    (inKsPc1.ControlLegal ∧ ∃ t, phaseStep inKsPc1 = .next t) ∧ inKsPc1.stepsLeft = 17 ∧ inFperm.stepsLeft = 1 :=
  ⟨⟨ready_keyed, rfl, _, rfl⟩, ⟨ready_loaded, rfl, rfl, _, rfl⟩, ⟨ready_scheduled, rfl, rfl, _, rfl⟩,
    ⟨inKsPc1_controlLegal, _, rfl⟩, rfl, rfl⟩

theorem witness_CommandsEnd : (inKsPc1.ControlLegal ∧ inKsPc1.busy = true ∧ inKsPc1.env.script = []) ∧
    (inFperm.ControlLegal ∧ inFperm.busy = true ∧ inFperm.env.script = []) :=
  ⟨⟨inKsPc1_controlLegal, rfl, rfl⟩, inFperm_controlLegal, rfl, rfl⟩

theorem witness_ReadsAndStepsCommute : (∃ t, phaseStep inRound = .next t) ∧
    (∃ t, hostAct (.read 0x007#12) inRound = .next t) ∧ (∃ t, hostAct .wait inRound = .next t) :=
  ⟨⟨_, rfl⟩, ⟨_, rfl⟩, _, rfl⟩

/-- A step that changes KEY, and one that changes DOUT. -/
theorem witness_WhoWritesTheDataRegisters :
    (after (step ({ State.reset with env := host [.write 0x004#12 keyT1] } : State)) (·.key) = some keyT1 ∧
      State.reset.key ≠ keyT1) ∧
    (after (step inFperm) (·.dout) = some cipherT1 ∧ inFperm.dout ≠ cipherT1) :=
  ⟨⟨by decide, by decide⟩, by decide +kernel, by decide⟩

end Sys2Proof.Tests
end

section
/-! SUPPORT. The register index space (20_memory.md R61, R62, R65): `regAt` undoes `regIndex`, and a host read by the
name of its register. -/

namespace Sys2Proof.Machine

/-- The index map loses nothing (20_memory.md R61). -/
@[simp] theorem regAt_regIndex (n : RegName) : regAt (regIndex n) = some n := by
  cases n with
  | cmd | status | seq | trv | key | din | dout | lr | cd => rfl
  | sk i =>
    have ha : (regIndex (.sk i)).toNat = 0x010 + i.val := Nat.mod_eq_of_lt (by omega)
    simp +arith [regAt, ha]
  | tbufw w =>
    have ha : (regIndex (.tbufw w)).toNat = 0x040 + w.val := Nat.mod_eq_of_lt (by omega)
    simp +arith [regAt, ha]
  | trw i w =>
    have ha : (regIndex (.trw i w)).toNat = 0x100 + 16 * i.val + w.val := Nat.mod_eq_of_lt (by omega)
    have hw : (0x100 + 16 * i.val + w.val) % 16 = w.val := by omega
    have hi : (0x100 + 16 * i.val + w.val - 0x100) / 16 = i.val := by omega
    simp (disch := omega) only [regAt, ha, hw, hi, if_neg, dif_neg]
    exact dif_pos (by omega)

/-- A reserved index names no register (20_memory.md R62): it fails every test of the index map. -/
theorem regAt_of_reservedIndex {a : Index} (h : reservedIndex a) : regAt a = none := by
  simp (disch := omega) only [regAt, if_neg, dif_neg]

/-- A read of a register's index answers the register's value (20_memory.md R65). -/
@[simp] theorem hostRead_regIndex (n : RegName) (s : State) : hostRead (regIndex n) s = s.regValue n := by
  simp [hostRead]

/-- A read of a reserved index answers 0 (20_memory.md R62). -/
theorem hostRead_of_reservedIndex {a : Index} (h : reservedIndex a) (s : State) : hostRead a s = 0#64 := by
  simp [hostRead, regAt_of_reservedIndex h]

end Sys2Proof.Machine
end

section
/-! SUPPORT. The words of a trace record and the packing of an SboxLookup (10_state.md R37, R38). -/

namespace Sys2Proof.Machine

/-- The indexes of the words 0 to 9 of a record are those of the TR registers. -/
theorem hostRead_traceWord (s : State) (i : Fin 16) (w : Nat) (hw : w < 10) :
    hostRead (BitVec.ofNat 12 (0x100 + 16 * i.val + w)) s = traceWord s.tr[i] ⟨w, hw⟩ :=
  hostRead_regIndex (.trw i ⟨w, hw⟩) s

/-- The indexes of the words 10 to 15 of a record are reserved. -/
theorem hostRead_traceGap (s : State) (i : Fin 16) (w : Nat) (h1 : 10 ≤ w) (h2 : w ≤ 15) :
    hostRead (BitVec.ofNat 12 (0x100 + 16 * i.val + w)) s = 0#64 := by
  have ha : (BitVec.ofNat 12 (0x100 + 16 * i.val + w)).toNat = 0x100 + 16 * i.val + w := Nat.mod_eq_of_lt (by omega)
  exact hostRead_of_reservedIndex (by simp only [reservedIndex, ha]; omega) s

/-- Zero extension to a word puts sixteen zero bits above the value. -/
theorem extract_setWidth_64 (x : BitVec 48) :
    (x.setWidth 64).extractLsb' 48 16 = 0#16 ∧ (x.setWidth 64).extractLsb' 0 48 = x := by
  have hx : x.setWidth 64 = 0#16 ++ x := BitVec.setWidth_eq_append (by decide)
  rw [hx]
  exact ⟨extract_append_high 0#16 x, extract_append_low 0#16 x⟩

/-- The words 4 to 7 hold the eight lookups, two in a word. -/
theorem traceWord_lookups (t : TraceRecord) (p : Fin 4) :
    traceWord t ⟨4 + p.val, by omega⟩ =
      packLookup (t.lookup[2 * p.val]'(by omega)) ++ packLookup (t.lookup[2 * p.val + 1]'(by omega)) := by
  fin_cases p <;> rfl

/-- A lookup of even slot stands in the upper half of its word, one of odd slot in the lower half. -/
theorem extract_traceWord_lookup (t : TraceRecord) (b : Fin 8) :
    (traceWord t ⟨4 + b.val / 2, by omega⟩).extractLsb' (32 - 32 * (b.val % 2)) 32 = packLookup t.lookup[b] := by
  have hw := traceWord_lookups t ⟨b.val / 2, by omega⟩
  rw [hw]
  rcases Nat.mod_two_eq_zero_or_one b.val with h | h
  · have hb : 2 * (b.val / 2) = b.val := by omega
    simpa [h, hb] using extract_append_high _ _
  · have hb : 2 * (b.val / 2) + 1 = b.val := by omega
    simpa [h, hb] using extract_append_low _ _

/-- Each field of an SboxLookup stands in its bits of the packed word, with zeros between (10_state.md R37). -/
theorem extract_packLookup (u : SboxLookup) :
    (packLookup u).extractLsb' 24 8 = u.box ∧ (packLookup u).extractLsb' 22 2 = 0#2 ∧
    (packLookup u).extractLsb' 16 6 = u.input ∧ (packLookup u).extractLsb' 14 2 = 0#2 ∧
    (packLookup u).extractLsb' 12 2 = u.row ∧ (packLookup u).extractLsb' 8 4 = u.column ∧
    (packLookup u).extractLsb' 4 4 = 0#4 ∧ (packLookup u).extractLsb' 0 4 = u.output := by
  unfold packLookup
  refine ⟨?_, ?_, ?_, ?_, ?_, ?_, ?_, extract_append_low _ _⟩
  -- Drop the fields below the one asked for; it is then the lowest, or (the box) the only one left.
  all_goals repeat rw [BitVec.extractLsb'_append_eq_of_le (by decide)]
  · exact BitVec.extractLsb'_eq_self
  all_goals exact extract_append_low _ _

/-- Word 0 is `round ‖ 0x00 ‖ subkey` (10_state.md R38). -/
theorem extract_traceWord_zero (t : TraceRecord) :
    (traceWord t 0).extractLsb' 56 8 = t.round ∧ (traceWord t 0).extractLsb' 48 8 = 0#8 ∧
    (traceWord t 0).extractLsb' 0 48 = t.subkey := by
  have hw : traceWord t 0 = t.round ++ 0#8 ++ t.subkey := rfl
  rw [hw]
  refine ⟨?_, ?_, extract_append_low _ _⟩
  · exact (BitVec.extractLsb'_append_eq_of_le (by decide)).trans (extract_append_high t.round 0#8)
  · exact (BitVec.extractLsb'_append_eq_of_le (by decide)).trans (extract_append_low t.round 0#8)

end Sys2Proof.Machine
end

section
/-! CERTIFICATE. The statements about the state (10_state.md). -/

open Sys2Proof Sys2Proof.Machine

/-- Settles O14: a read of a record's index is a trace word or the 0 of a reserved index, and each field is a part of
the concatenation that its word is. -/
theorem traceRecordLayout : Obligations.TraceRecordLayout := by
  refine ⟨fun s i => ?_, extract_packLookup⟩
  simp only [hostRead_traceWord, Nat.reduceLT]
  refine ⟨extract_traceWord_zero s.tr[i], ⟨extract_append_high _ _, extract_append_low _ _⟩,
    extract_setWidth_64 s.tr[i].expanded, extract_setWidth_64 s.tr[i].xored, fun b => ?lookups,
    ⟨extract_append_high _ _, extract_append_low _ _⟩, ⟨extract_append_high _ _, extract_append_low _ _⟩,
    hostRead_traceGap s i⟩
  case lookups =>
    rw [hostRead_traceWord s i _ (by omega)]
    exact extract_traceWord_lookup s.tr[i] b

end

section
/-! SUPPORT. The register index space against HostWrite (20_memory.md R61, R62, R66), and the gate that every host write
but SRST passes. -/

namespace Sys2Proof.Machine

/-- Every index is reserved or the index of a register (20_memory.md R61, R62). -/
theorem reserved_or_regIndex (a : Index) : reservedIndex a ∨ ∃ n, a = regIndex n := by
  have hrange : reservedIndex a ∨ a.toNat = 0x000 ∨ a.toNat = 0x001 ∨ a.toNat = 0x002 ∨ a.toNat = 0x003 ∨
      a.toNat = 0x004 ∨ a.toNat = 0x005 ∨ a.toNat = 0x006 ∨ a.toNat = 0x007 ∨ a.toNat = 0x008 ∨
      (0x010 ≤ a.toNat ∧ a.toNat < 0x020) ∨ (0x040 ≤ a.toNat ∧ a.toNat < 0x048) ∨
      (0x100 ≤ a.toNat ∧ a.toNat < 0x200 ∧ a.toNat % 16 < 10) := by omega
  rcases hrange with h | h | h | h | h | h | h | h | h | h | ⟨h1, h2⟩ | ⟨h1, h2⟩ | ⟨h1, h2, h3⟩
  · exact .inl h
  · exact .inr ⟨.cmd, BitVec.eq_of_toNat_eq h⟩
  · exact .inr ⟨.status, BitVec.eq_of_toNat_eq h⟩
  · exact .inr ⟨.seq, BitVec.eq_of_toNat_eq h⟩
  · exact .inr ⟨.trv, BitVec.eq_of_toNat_eq h⟩
  · exact .inr ⟨.key, BitVec.eq_of_toNat_eq h⟩
  · exact .inr ⟨.din, BitVec.eq_of_toNat_eq h⟩
  · exact .inr ⟨.dout, BitVec.eq_of_toNat_eq h⟩
  · exact .inr ⟨.lr, BitVec.eq_of_toNat_eq h⟩
  · exact .inr ⟨.cd, BitVec.eq_of_toNat_eq h⟩
  · exact .inr ⟨.sk ⟨a.toNat - 0x010, by omega⟩, BitVec.eq_of_toNat_eq (by simp [regIndex]; omega)⟩
  · exact .inr ⟨.tbufw ⟨a.toNat - 0x040, by omega⟩, BitVec.eq_of_toNat_eq (by simp [regIndex]; omega)⟩
  · exact .inr ⟨.trw ⟨(a.toNat - 0x100) / 16, by omega⟩ ⟨a.toNat % 16, by omega⟩,
      BitVec.eq_of_toNat_eq (by simp [regIndex]; omega)⟩

/-- Every index is reserved, read only, or that of a register the host can write (20_memory.md R61, R62). -/
theorem index_cases (a : Index) : (reservedIndex a ∨ readOnlyIndex a) ∨ a = regIndex .cmd ∨ a = regIndex .key ∨
    a = regIndex .din ∨ ∃ w, a = regIndex (.tbufw w) := by
  rcases reserved_or_regIndex a with h | ⟨n, rfl⟩
  · exact .inl (.inl h)
  cases n with
  | status | seq | trv | dout | lr | cd => exact .inl (.inr (by decide))
  | sk i => exact .inl (.inr (by simp [readOnlyIndex, regIndex]; omega))
  | trw i w => exact .inl (.inr (by simp [readOnlyIndex, regIndex]; omega))
  | cmd => exact .inr (.inl rfl)
  | key => exact .inr (.inr (.inl rfl))
  | din => exact .inr (.inr (.inr (.inl rfl)))
  | tbufw w => exact .inr (.inr (.inr (.inr ⟨w, rfl⟩)))

/-- No index of a TBUF word is reserved or read only (20_memory.md R61). -/
theorem tbufw_accessible (w : Fin 8) :
    ¬(reservedIndex (regIndex (.tbufw w)) ∨ readOnlyIndex (regIndex (.tbufw w))) := by
  revert w; decide

/-- Line 4 of HostWrite (20_memory.md R66), behind the gate: such an index is none of a register the host can write. -/
theorem hostWrite_badAddr {a : Index} (h : reservedIndex a ∨ readOnlyIndex a) (v : Word64) (s : State) :
    hostWrite a v s = .next (s.gateWrite (State.raiseFault .badAddr)) := by
  rcases reserved_or_regIndex a with ha | ⟨n, rfl⟩
  · simp [hostWrite, regAt_of_reservedIndex ha]
  cases n with
  | cmd | key | din => exact absurd h (by decide)
  | tbufw w => exact absurd h (tbufw_accessible w)
  | status | seq | trv | dout | lr | cd | sk | trw => simp [hostWrite]

/-! ### One equation per register the host can write -/

theorem hostWrite_cmd_of_ok {v : Word64} {i : Instr} (h : decode v = .ok i) (s : State) :
    hostWrite (regIndex .cmd) v s = exec i s := by simp [hostWrite, writeCommand, h]

theorem hostWrite_cmd_of_error {v : Word64} {e : DecodeError} (h : decode v = .error e) (s : State) :
    hostWrite (regIndex .cmd) v s = .next (s.gateWrite (State.raiseFault .illegalCmd)) := by
  simp [hostWrite, writeCommand, h]

theorem hostWrite_key (v : Word64) (s : State) :
    hostWrite (regIndex .key) v s = .next (s.gateWrite (State.writeKey v)) := by simp [hostWrite]

theorem hostWrite_din (v : Word64) (s : State) :
    hostWrite (regIndex .din) v s = .next (s.gateWrite (State.writeDin v)) := by simp [hostWrite]

theorem hostWrite_tbufw (w : Fin 8) (v : Word64) (s : State) :
    hostWrite (regIndex (.tbufw w)) v s = .next (s.gateWrite (State.writeTbufWord w v)) := by simp [hostWrite]

/-! ### The gate -/

/-- Among the 256 bytes only `0xFF` is SRST (30_encoding.md R94). -/
theorem decodeByte_eq_srst : ∀ b : BitVec 8, decodeByte b = .ok .srst → b = 0xFF#8 := by decide

/-- Only the value `0xFF` is SRST (30_encoding.md R90, R94). -/
theorem eq_of_decode_eq_srst {v : Word64} (h : decode v = .ok .srst) : v = 0xFF#64 := by
  unfold decode at h
  split at h
  · rename_i hhigh
    have hlow := decodeByte_eq_srst _ h
    calc v = v.extractLsb' 8 56 ++ v.extractLsb' 0 8 := by
            rw [BitVec.extractLsb'_append_extractLsb'_eq_extractLsb' (by rfl)]; exact BitVec.extractLsb'_eq_self.symm
      _ = 0xFF#64 := by rw [hhigh, hlow]; rfl
  · cases h

/-- Every command but SRST stands behind the gate (20_memory.md R66 lines 2, 3; log entry 11). -/
theorem exec_gated {i : Instr} (h : i ≠ .srst) (s : State) : ∃ body, exec i s = .next (s.gateWrite body) := by
  cases i with
  | srst => exact absurd rfl h
  | nop | keysched | enc | dec | ldhex | ldbin | sthex | stbin => exact ⟨_, rfl⟩

/-- Every host write but SRST stands behind the gate (20_memory.md R66 lines 2, 3), whatever the index and the value. -/
theorem hostWrite_gated {a : Index} {v : Word64} (h : ¬(a = 0x000#12 ∧ v = 0xFF#64)) (s : State) :
    ∃ body, hostWrite a v s = .next (s.gateWrite body) := by
  rcases index_cases a with hbad | rfl | rfl | rfl | ⟨w, rfl⟩
  · exact ⟨_, hostWrite_badAddr hbad v s⟩
  · cases hd : decode v with
    | ok i =>
      have hi : i ≠ .srst := fun e => h ⟨rfl, eq_of_decode_eq_srst (e ▸ hd)⟩
      rw [hostWrite_cmd_of_ok hd]
      exact exec_gated hi s
    | error e => exact ⟨_, hostWrite_cmd_of_error hd s⟩
  · exact ⟨_, hostWrite_key v s⟩
  · exact ⟨_, hostWrite_din v s⟩
  · exact ⟨_, hostWrite_tbufw w v s⟩

/-- Line 1 of HostWrite (20_memory.md R66): SRST is obeyed in every state. -/
theorem hostWrite_srst (s : State) : hostWrite 0x000#12 0xFF#64 s = .next s.toReset := rfl

end Sys2Proof.Machine
end

section
/-! SUPPORT. The bytes of a word of TBUF, read and written (00_scope.md R12, 20_memory.md R63). -/

namespace Sys2Proof.Machine

/-- Byte `k` of a list stands in the `k`-th byte of its bits from the most significant end (40_conversion.md R111). -/
theorem extract_bytesToBits {n k : Nat} (hk : k < n) (b : List Byte) :
    (bytesToBits n b).extractLsb' (8 * (n - k - 1)) 8 = b.getD k 0#8 := by
  apply BitVec.eq_of_getLsbD_eq
  intro i hi
  have hpos : 8 * n - (8 * (n - k - 1) + i + 1) = 8 * k + (7 - i) := by omega
  have hbyte : (8 * k + (7 - i)) / 8 = k := by omega
  have hbit : (8 * k + (7 - i)) % 8 = 7 - i := by omega
  have hin : 8 * (n - k - 1) + i < 8 * n := by omega
  have hrev : 7 - (7 - i) = i := by omega
  have hlt : 7 - i < 8 := by omega
  simp [bytesToBits, Fin.rev, hi, hin, hpos, hbyte, hbit, BitVec.getMsbD_eq_getLsbD, hrev, hlt]

/-- Byte `k` of BitsToBytes (40_conversion.md R112). -/
theorem getD_bitsToBytes {n k : Nat} (hk : k < n) (v : BitVec (8 * n)) :
    (bitsToBytes n v).getD k 0#8 = v.extractLsb' (8 * (n - k - 1)) 8 := by
  simp [bitsToBytes, hk]

/-- Byte `k` of MemRead is the byte at address `a + k` (00_scope.md R12). -/
theorem extract_memRead {n k : Nat} (hk : k < n) (m : Memory) (a : Nat) :
    (memRead m a n).extractLsb' (8 * (n - k - 1)) 8 = memGet m (a + k) := by
  rw [memRead, extract_bytesToBits hk]
  simp [memBytes, hk]

/-- A byte read after MemWrite (00_scope.md R12): its part of the value inside the run, as before outside. -/
theorem memGet_memWrite {m : Memory} (h : m.wf) {a n : Nat} (ha : a + n ≤ tbufBytes) (v : BitVec (8 * n)) (x : Nat) :
    memGet (memWrite m a n v) x =
      if a ≤ x ∧ x < a + n then v.extractLsb' (8 * (n - (x - a) - 1)) 8 else memGet m x := by
  rw [memWrite, memGet_memPut m a x _ h (by simpa using ha), bitsToBytes_length]
  split
  · exact getD_bitsToBytes (by omega) v
  · rfl

end Sys2Proof.Machine
end

section
/-! CERTIFICATE. The statements about host reads and writes (20_memory.md). -/

open Sys2Proof Sys2Proof.Machine

/-- Settles O9: each index of the table is that of a register, which reads as its value, or reserved. -/
theorem hostReadTable : Obligations.HostReadTable := fun s =>
  ⟨fun _ => ⟨_, rfl⟩, hostRead_regIndex .cmd s, hostRead_regIndex .status s, hostRead_regIndex .seq s,
    hostRead_regIndex .trv s, hostRead_regIndex .key s, hostRead_regIndex .din s, hostRead_regIndex .dout s,
    hostRead_regIndex .lr s, hostRead_regIndex .cd s, fun i => hostRead_regIndex (.sk i) s,
    fun w => hostRead_regIndex (.tbufw w) s, fun i w => hostRead_regIndex (.trw i w) s,
    fun _ ha => hostRead_of_reservedIndex ha s⟩

/-- Settles O10: a read answers at every index, and line 4 of HostWrite is reached when CORE is ready. -/
theorem reservedAndReadOnlyIndexes : Obligations.ReservedAndReadOnlyIndexes := by
  refine ⟨fun a s ha => hostRead_of_reservedIndex ha s, fun a s => ⟨_, rfl⟩, fun a v s ⟨hb, hf⟩ hbad => ?_⟩
  rw [hostWrite_badAddr hbad, gateWrite_ready _ s hb hf]
  rfl

/-- Settles O11: SRST alone has no gate; the gate decides lines 2 and 3, and in a ready state the index decides. -/
theorem hostWriteOrder : Obligations.HostWriteOrder := by
  intro a v s
  by_cases hsrst : a = 0x000#12 ∧ v = 0xFF#64
  · rw [if_pos hsrst, hsrst.1, hsrst.2]
    exact hostWrite_srst s
  rw [if_neg hsrst]
  obtain ⟨body, hgate⟩ := hostWrite_gated hsrst s
  by_cases hf : s.fault = true
  · rw [if_pos hf, hgate, gateWrite_faulted body s hf]
  rw [if_neg hf]
  by_cases hb : s.busy = true
  · rw [if_pos hb, hgate, gateWrite_busy body s hb (by simpa using hf)]
  rw [if_neg hb]
  have hready : ∀ body : State → State, s.gateWrite body = body s := fun body =>
    gateWrite_ready body s (by simpa using hb) (by simpa using hf)
  rcases index_cases a with hbad | rfl | rfl | rfl | ⟨w, rfl⟩
  · rw [if_pos hbad, hostWrite_badAddr hbad, hready]
  · rw [if_neg (by decide), if_pos (by rfl)]
    cases hd : decode v with
    | ok i => exact hostWrite_cmd_of_ok hd s
    | error e => rw [hostWrite_cmd_of_error hd, hready]
  · rw [if_neg (by decide), if_neg (by decide), if_pos (by rfl), hostWrite_key, hready]
    rfl
  · rw [if_neg (by decide), if_neg (by decide), if_neg (by decide), if_pos (by rfl), hostWrite_din, hready]
    rfl
  · have hw : (regIndex (.tbufw w)).toNat = 0x040 + w.val := Nat.mod_eq_of_lt (by omega)
    rw [if_neg (tbufw_accessible w), if_neg (by bv_omega), if_neg (by bv_omega), if_neg (by bv_omega), hostWrite_tbufw,
      hready, hw, Nat.add_sub_cancel_left]
    rfl

/-- Settles O12: a TBUF word is MemRead and MemWrite of eight bytes at `8w`, and each byte of those is a part of the
word. -/
theorem tbufWordsAreBigEndian : Obligations.TbufWordsAreBigEndian := by
  have hpos : ∀ k, 56 - 8 * k = 8 * (8 - k - 1) := by omega
  refine ⟨fun s w k => ?read, fun s w v ⟨hb, hf⟩ hwf => ⟨memWrite s.tbuf (8 * w.val) 8 v, ?write, fun a => ?byte⟩⟩
  case read =>
    rw [hpos]
    exact (congrArg _ (hostRead_regIndex (.tbufw w) s)).trans (extract_memRead k.isLt s.tbuf (8 * w.val))
  case write =>
    exact (hostWrite_tbufw w v s).trans (congrArg _ (gateWrite_ready _ s hb hf))
  case byte =>
    have hin : 8 * w.val + 8 ≤ tbufBytes := by simp only [tbufBytes]; omega
    rw [hpos]
    exact memGet_memWrite hwf hin v a

end

section
/-! SUPPORT. The decoder against the encoder (30_encoding.md R90 to R95, R100): a byte, and then a value, decodes to a
command exactly when it is the encoding of one of the fifteen. -/

namespace Sys2Proof

/-- The fifteen commands that have an encoding, in the order of the opcode map (30_encoding.md R94). -/
def legalCommands : List Instr :=
  [.nop, .keysched, .enc, .dec, .ldhex .key, .ldhex .din, .ldbin .key, .ldbin .din, .sthex .key, .sthex .din,
    .sthex .dout, .stbin .key, .stbin .din, .stbin .dout, .srst]

/-- A well-formed command is one of the fifteen: only the loads have no `DOUT` form (30_encoding.md R93). -/
theorem mem_legalCommands {i : Instr} (h : i.wellFormed = true) : i ∈ legalCommands := by
  cases i with
  | nop | keysched | enc | dec | srst => decide
  | ldhex r | ldbin r =>
    cases r with
    | key | din => decide
    | dout => cases h
  | sthex r | stbin r => cases r <;> decide

/-- The encoder's byte of each of the fifteen commands decodes to it. -/
theorem decodeByte_encodeByte : ∀ i ∈ legalCommands, decodeByte (encodeByte i) = .ok i := by decide

/-- Each of the 256 bytes decodes to no command, or to a well-formed one of which it is the encoding
(30_encoding.md R94). -/
theorem decodeByte_sound : ∀ b : BitVec 8, ∀ i ∈ (decodeByte b).toOption, i.wellFormed = true ∧ b = encodeByte i := by
  decide

/-- `decodeByte` is the partial inverse of `encodeByte`, defined on the well-formed commands' bytes only. -/
theorem decodeByte_eq_ok_iff {b : BitVec 8} {i : Instr} :
    decodeByte b = .ok i ↔ i.wellFormed = true ∧ b = encodeByte i :=
  ⟨fun h => decodeByte_sound b i (h ▸ rfl), fun ⟨hw, hb⟩ => hb ▸ decodeByte_encodeByte i (mem_legalCommands hw)⟩

theorem decode_of_high_zero {v : Word64} (h : v.extractLsb' 8 56 = 0#56) :
    decode v = decodeByte (v.extractLsb' 0 8) := if_pos h

theorem decode_of_high_ne_zero {v : Word64} (h : v.extractLsb' 8 56 ≠ 0#56) : decode v = .error .highBits := if_neg h

/-- A value that decodes to a command is the encoding of that command, which is well-formed (30_encoding.md R100). -/
theorem eq_encode_of_decode {v : Word64} {i : Instr} (h : decode v = .ok i) : i.wellFormed = true ∧ v = encode i := by
  by_cases hhigh : v.extractLsb' 8 56 = 0#56
  · rw [decode_of_high_zero hhigh] at h
    obtain ⟨hw, hlow⟩ := decodeByte_eq_ok_iff.mp h
    refine ⟨hw, ?_⟩
    calc v = v.extractLsb' 8 56 ++ v.extractLsb' 0 8 := by
            rw [BitVec.extractLsb'_append_extractLsb'_eq_extractLsb' (by rfl)]; exact BitVec.extractLsb'_eq_self.symm
      _ = encode i := by rw [hhigh, hlow]; rfl
  · rw [decode_of_high_ne_zero hhigh] at h
    cases h

/-- The fifteen values of the opcode map (30_encoding.md R94, R98). -/
theorem encode_legalCommands : legalCommands.map encode =
    [0x00#64, 0x10#64, 0x20#64, 0x30#64, 0x40#64, 0x41#64, 0x50#64, 0x51#64, 0x60#64, 0x61#64, 0x62#64, 0x70#64,
      0x71#64, 0x72#64, 0xFF#64] := rfl

/-- A value outside the opcode map is ILLEGAL (30_encoding.md R95). -/
theorem decode_reserved {v : Word64} (h : v ∉ legalCommands.map encode) : ∃ e, decode v = .error e := by
  cases hd : decode v with
  | error e => exact ⟨e, rfl⟩
  | ok i =>
    obtain ⟨hw, rfl⟩ := eq_encode_of_decode hd
    exact absurd (List.mem_map_of_mem (mem_legalCommands hw)) h

end Sys2Proof

namespace Sys2Proof.Machine

/-- An ILLEGAL value written to CMD when CORE is ready (60_exceptions.md R252). -/
theorem hostWrite_illegal {v : Word64} {e : DecodeError} {s : State} (hd : decode v = .error e) (hs : s.ready) :
    hostWrite 0x000#12 v s = .next (s.raiseFault .illegalCmd) := by
  obtain ⟨hbusy, hfault⟩ := hs
  exact (hostWrite_cmd_of_error hd s).trans (congrArg _ (gateWrite_ready _ s hbusy hfault))

end Sys2Proof.Machine
end

section
/-! CERTIFICATE. The statements about the encoding (30_encoding.md). -/

open Sys2Proof Sys2Proof.Machine

/-- Settles O2: the high bits decide first, then the low byte's row of the map; a byte of no row is outside the map. -/
theorem decodeFollowsTheMap : Obligations.DecodeFollowsTheMap := by
  intro v
  refine ⟨fun hhigh => ⟨_, decode_of_high_ne_zero hhigh⟩, fun hhigh => ?lowByte, fun _ _ => hostWrite_illegal⟩
  case lowByte =>
    split
    case h_16 =>
      refine decode_reserved fun hv => ?_
      rw [encode_legalCommands] at hv
      fin_cases hv <;> contradiction
    all_goals
      next hb =>
        rw [decode_of_high_zero hhigh]
        exact decodeByte_eq_ok_iff.mpr ⟨rfl, BitVec.eq_of_toNat_eq hb⟩

/-- Settles O4: a value outside the map decodes to no command, and CORE's answer to it is the fault entry. -/
theorem reservedCommandsFault : Obligations.ReservedCommandsFault := by
  intro v s hs hv
  rw [← encode_legalCommands] at hv
  obtain ⟨e, hd⟩ := decode_reserved hv
  exact hostWrite_illegal hd hs

end

section
/-! SUPPORT. The characters and texts of the bit_conversion_unit (40_conversion.md R113 to R118): what a digit, a
position and a text of them read back as. -/

namespace Sys2Proof.Machine

/-! ### Characters -/

/-- HexVal undoes HexChar (40_conversion.md R113, R114). -/
@[simp] theorem hexVal_hexChar : ∀ d : BitVec 4, hexVal (hexChar d) = some d := by decide

theorem binVal_binChar (b : Bool) : binVal (if b then 0x31#8 else 0x30#8) = some b := by cases b <;> rfl

theorem binVal_of_ne {c : Byte} (h0 : c ≠ 0x30#8) (h1 : c ≠ 0x31#8) : binVal c = none := by simp [binVal, h0, h1]

/-! ### Hexadecimal digits -/

/-- Bit `j` of digit `k` of a value, both counted from the most significant end. -/
theorem getMsbD_digit {m k j : Nat} (hk : k < m) (hj : j < 4) (v : BitVec (4 * m)) :
    (v.extractLsb' (4 * (m - k - 1)) 4).getMsbD j = v.getMsbD (4 * k + j) := by
  have hlow : 3 - j < 4 := by omega
  have hin : 4 * k + j < 4 * m := by omega
  have hpos : 4 * (m - k - 1) + (3 - j) = 4 * m - 1 - (4 * k + j) := by omega
  simp [BitVec.getMsbD_eq_getLsbD, hj, hlow, hin, hpos]

/-- Bit `j` of digit `k` of a text's value is bit `j` of that digit (40_conversion.md R115). -/
theorem getMsbD_digitsToBits {m k j : Nat} (hk : k < m) (hj : j < 4) (ds : List (BitVec 4)) :
    (digitsToBits m ds).getMsbD (4 * k + j) = (ds.getD k 0#4).getMsbD j := by
  have hin : 4 * k + j < 4 * m := by omega
  have hdigit : (4 * k + j) / 4 = k := by omega
  have hbit : (4 * k + j) % 4 = j := by omega
  simp only [digitsToBits, BitVec.getMsbD_ofFnBE, hin, dite_true, hdigit, hbit]

/-- Digit `k` of a text's value is digit `k` of the text, the first the most significant (40_conversion.md R115). -/
theorem extract_digitsToBits {m k : Nat} (hk : k < m) (ds : List (BitVec 4)) :
    (digitsToBits m ds).extractLsb' (4 * (m - k - 1)) 4 = ds.getD k 0#4 := by
  apply BitVec.eq_of_getMsbD_eq
  intro j hj
  rw [getMsbD_digit hk hj, getMsbD_digitsToBits hk hj]

/-- A value is that of its digits. -/
theorem digitsToBits_digits (m : Nat) (v : BitVec (4 * m)) :
    digitsToBits m ((List.range m).map fun k => v.extractLsb' (4 * (m - k - 1)) 4) = v := by
  apply BitVec.eq_of_getMsbD_eq
  intro i hi
  have hk : i / 4 < m := by omega
  have hj : i % 4 < 4 := by omega
  calc (digitsToBits m _).getMsbD i
      = (digitsToBits m _).getMsbD (4 * (i / 4) + i % 4) := by rw [Nat.div_add_mod]
    _ = (v.extractLsb' (4 * (m - i / 4 - 1)) 4).getMsbD (i % 4) := by rw [getMsbD_digitsToBits hk hj]; simp [hk]
    _ = v.getMsbD i := by rw [getMsbD_digit hk hj, Nat.div_add_mod]

/-- HexToBits undoes BitsToHex (40_conversion.md R115, R116). -/
theorem hexToBits_bitsToHex (m : Nat) (v : BitVec (4 * m)) : hexToBits m (bitsToHex m v) = some v := by
  have hvals : textValues m hexVal (bitsToHex m v) =
      some ((List.range m).map fun k => v.extractLsb' (4 * (m - k - 1)) 4) := by
    refine (textValues_eq_some m hexVal _ _).mpr ⟨bitsToHex_length m v, ?_⟩
    simp [bitsToHex]
  rw [hexToBits, hvals, Option.map_some, digitsToBits_digits]

/-- Character `k` of BitsToHex (40_conversion.md R116). -/
theorem getD_bitsToHex {m k : Nat} (hk : k < m) (v : BitVec (4 * m)) :
    (bitsToHex m v).getD k 0#8 = hexChar (v.extractLsb' (4 * (m - k - 1)) 4) := by
  simp [bitsToHex, hk]

/-- Character `k` of BitsToBin (40_conversion.md R118). -/
theorem getD_bitsToBin {m k : Nat} (hk : k < m) (v : BitVec m) :
    (bitsToBin m v).getD k 0#8 = if v.getMsbD k then 0x31#8 else 0x30#8 := by
  simp [bitsToBin, bitAt, hk]

/-! ### Texts in the buffer -/

theorem getD_ofFn {α : Type} {n : Nat} (ds : Fin n → α) (k : Fin n) (d : α) : (List.ofFn ds).getD k.val d = ds k := by
  simp

/-- A text in the buffer each of whose characters has a value has those values. -/
theorem textValues_memBytes {α : Type} {n : Nat} {f : Byte → Option α} {m : Memory} {ds : Fin n → α}
    (h : ∀ k : Fin n, f (memGet m k.val) = some (ds k)) : textValues n f (memBytes m 0 n) = some (List.ofFn ds) := by
  refine (textValues_eq_some n f _ _).mpr ⟨memBytes_length m 0 n, ?_⟩
  apply List.ext_getElem (by simp)
  intro k hk _
  have hkn : k < n := by simpa using hk
  simpa [memBytes] using h ⟨k, hkn⟩

/-- A text in the buffer with a character that has no value has none. -/
theorem textValues_memBytes_none {α : Type} {n : Nat} {f : Byte → Option α} {m : Memory}
    (h : ∃ k : Fin n, f (memGet m k.val) = none) : textValues n f (memBytes m 0 n) = none := by
  obtain ⟨k, hk⟩ := h
  refine (textValues_eq_none n f _).mpr (.inr ⟨_, ?_, hk⟩)
  simpa [memBytes] using ⟨k.val, k.isLt, rfl⟩

/-- A text written at address 0 is read back there, and no byte after it changes. -/
theorem memGet_memPut_zero {m : Memory} (h : m.wf) {t : List Byte} (ht : t.length ≤ tbufBytes) (a : Nat) :
    memGet (memPut m 0 t) a = if a < t.length then t.getD a 0#8 else memGet m a := by
  simpa using memGet_memPut m 0 a t h (by simpa using ht)

/-- A text written at address 0 stands there as a whole. -/
theorem memBytes_memPut {m : Memory} (h : m.wf) {t : List Byte} (ht : t.length ≤ tbufBytes) :
    memBytes (memPut m 0 t) 0 t.length = t := by
  apply List.ext_getElem (by simp)
  intro k _ hk
  simp [memBytes, memGet_memPut_zero h ht, hk]

end Sys2Proof.Machine
end

section
/-! SUPPORT. The commands of the bit_conversion_unit when CORE is ready (40_conversion.md R124 to R127). -/

namespace Sys2Proof.Machine

variable {s : State}

theorem hexText_of_digits {ds : Fin 16 → BitVec 4} (h : ∀ k : Fin 16, hexVal (memGet s.tbuf k.val) = some (ds k)) :
    s.hexText = some (digitsToBits 16 (List.ofFn ds)) := by
  rw [State.hexText, hexToBits, textValues_memBytes h, Option.map_some]

theorem hexText_eq_none (h : ∃ k : Fin 16, hexVal (memGet s.tbuf k.val) = none) : s.hexText = none := by
  rw [State.hexText, hexToBits, textValues_memBytes_none h, Option.map_none]

theorem binText_of_bits {bs : Fin 64 → Bool} (h : ∀ k : Fin 64, binVal (memGet s.tbuf k.val) = some (bs k)) :
    s.binText = some (BitVec.ofFnBE bs) := by
  rw [State.binText, binToBits, textValues_memBytes h, Option.map_some]
  simp only [getD_ofFn]

theorem binText_eq_none (h : ∃ k : Fin 64, binVal (memGet s.tbuf k.val) = none) : s.binText = none := by
  rw [State.binText, binToBits, textValues_memBytes_none h, Option.map_none]

/-- The text that STHEX of a register leaves has the register's value. -/
theorem hexText_putText (hwf : s.tbuf.wf) (v : Word64) : (s.putText (bitsToHex 16 v)).hexText = some v := by
  have htext : memBytes (memPut s.tbuf 0 (bitsToHex 16 v)) 0 16 = bitsToHex 16 v := by
    simpa using memBytes_memPut hwf (t := bitsToHex 16 v) (by simp [tbufBytes])
  rw [State.hexText, State.putText_tbuf, htext, hexToBits_bitsToHex]

/-! ### Past the gate -/

theorem gateWrite_of_ready (hs : s.ready) (body : State → State) : s.gateWrite body = body s := by
  obtain ⟨hbusy, hfault⟩ := hs
  exact gateWrite_ready body s hbusy hfault

theorem exec_ldhex_ready (hs : s.ready) (rd : DataReg) : exec (.ldhex rd) s = .next (s.loadText rd s.hexText) :=
  congrArg _ (gateWrite_of_ready hs _)

theorem exec_ldbin_ready (hs : s.ready) (rd : DataReg) : exec (.ldbin rd) s = .next (s.loadText rd s.binText) :=
  congrArg _ (gateWrite_of_ready hs _)

theorem exec_sthex_ready (hs : s.ready) (rs : DataReg) :
    exec (.sthex rs) s = .next (s.putText (bitsToHex 16 (s.readReg rs))) :=
  congrArg _ (gateWrite_of_ready hs _)

theorem exec_stbin_ready (hs : s.ready) (rs : DataReg) :
    exec (.stbin rs) s = .next (s.putText (bitsToBin 64 (s.readReg rs))) :=
  congrArg _ (gateWrite_of_ready hs _)

/-! ### Loads -/

theorem loadText_key (v : Word64) : s.loadText .key (some v) = s.writeKey v := rfl

theorem loadText_din (v : Word64) : s.loadText .din (some v) = s.writeDin v := rfl

theorem loadText_none {rd : DataReg} (h : rd.legalDestination = true) : s.loadText rd none = s.raiseFault .encoding :=
  if_pos h

/-- LDHEX of a register, after STHEX of the same one, loads the value it had (40_conversion.md R125). -/
theorem exec_ldhex_after_sthex (hs : s.ready) (hwf : s.tbuf.wf) (r : DataReg) :
    exec (.ldhex r) (s.putText (bitsToHex 16 (s.readReg r))) =
      .next ((s.putText (bitsToHex 16 (s.readReg r))).loadText r (some (s.readReg r))) := by
  have hready : (s.putText (bitsToHex 16 (s.readReg r))).ready := hs
  rw [exec_ldhex_ready hready, hexText_putText hwf]

end Sys2Proof.Machine
end

section
/-! CERTIFICATE. The statements about the conversions (40_conversion.md). -/

open Sys2Proof Sys2Proof.Machine

/-- Settles O22: a text whose characters all have a value is the number of its digits, and a load writes that number;
a text without a value is the `ENCODING` case of a load. -/
theorem ldhexLoadsSixteenDigits : Obligations.LdhexLoadsSixteenDigits := by
  intro s hs
  refine ⟨fun ds hds => ⟨digitsToBits 16 (List.ofFn ds), fun k => ?digit, ?key, ?din⟩, fun hbad => ⟨?badKey, ?badDin⟩,
    hostWrite_cmd_of_ok rfl s, hostWrite_cmd_of_ok rfl s, hostWrite_illegal rfl hs, hostWrite_illegal rfl hs⟩
  case digit =>
    rw [show 60 - 4 * k.val = 4 * (16 - k.val - 1) by omega]
    exact (extract_digitsToBits k.isLt _).trans (getD_ofFn ds k 0#4)
  case key => rw [exec_ldhex_ready hs, hexText_of_digits hds, loadText_key]; rfl
  case din => rw [exec_ldhex_ready hs, hexText_of_digits hds, loadText_din]; rfl
  case badKey => rw [exec_ldhex_ready hs, hexText_eq_none hbad, loadText_none rfl]
  case badDin => rw [exec_ldhex_ready hs, hexText_eq_none hbad, loadText_none rfl]

/-- Settles O23: as O22, with the sixty-four characters as the cipher positions of the number. -/
theorem ldbinLoadsSixtyFourBits : Obligations.LdbinLoadsSixtyFourBits := by
  intro s hs
  have hvals {bs : Fin 64 → Bool} (hbs : ∀ k : Fin 64, memGet s.tbuf k.val = if bs k then 0x31#8 else 0x30#8) :
      s.binText = some (BitVec.ofFnBE bs) := binText_of_bits fun k => by rw [hbs k, binVal_binChar]
  have hnone (hbad : ∃ k : Fin 64, memGet s.tbuf k.val ≠ 0x30#8 ∧ memGet s.tbuf k.val ≠ 0x31#8) : s.binText = none :=
    binText_eq_none (hbad.imp fun _ ⟨h0, h1⟩ => binVal_of_ne h0 h1)
  refine ⟨fun bs hbs => ⟨BitVec.ofFnBE bs, fun k => ?position, ?key, ?din⟩, fun hbad => ⟨?badKey, ?badDin⟩,
    hostWrite_cmd_of_ok rfl s, hostWrite_cmd_of_ok rfl s, hostWrite_illegal rfl hs, hostWrite_illegal rfl hs⟩
  case position => simp [BitVec.getMsbD_ofFnBE]
  case key => rw [exec_ldbin_ready hs, hvals hbs, loadText_key]; rfl
  case din => rw [exec_ldbin_ready hs, hvals hbs, loadText_din]; rfl
  case badKey => rw [exec_ldbin_ready hs, hnone hbad, loadText_none rfl]
  case badDin => rw [exec_ldbin_ready hs, hnone hbad, loadText_none rfl]

/-- Settles O24: the sixteen characters go to the first sixteen bytes, and HexToBits undoes them for the load. -/
theorem sthexStoresSixteenDigits : Obligations.SthexStoresSixteenDigits := by
  intro s hs hwf
  refine ⟨fun rs => ⟨_, exec_sthex_ready hs rs, fun a => ?byte⟩, hostWrite_cmd_of_ok rfl s, hostWrite_cmd_of_ok rfl s,
    hostWrite_cmd_of_ok rfl s, hostWrite_illegal rfl hs, fun r hr => ?reload⟩
  case byte =>
    rw [memGet_memPut_zero hwf (by simp [tbufBytes]), bitsToHex_length]
    split
    · next ha =>
      rw [getD_bitsToHex ha, show 60 - 4 * a = 4 * (16 - a - 1) by omega]
      cases rs <;> rfl
    · rfl
  case reload =>
    refine ⟨_, _, exec_sthex_ready hs r, exec_ldhex_after_sthex hs hwf r, ?_⟩
    obtain ⟨_, hfault⟩ := hs
    rcases hr with rfl | rfl
    · rw [loadText_key]
      simp [State.readReg, hfault]
    · rw [loadText_din]
      simp [State.readReg, hfault]

/-- Settles O25: the sixty-four characters go to the whole buffer. -/
theorem stbinStoresSixtyFourBits : Obligations.StbinStoresSixtyFourBits := by
  intro s hs hwf
  refine ⟨fun rs => ⟨_, exec_stbin_ready hs rs, fun a => ?byte⟩, hostWrite_cmd_of_ok rfl s, hostWrite_cmd_of_ok rfl s,
    hostWrite_cmd_of_ok rfl s, hostWrite_illegal rfl hs⟩
  case byte =>
    rw [memGet_memPut_zero hwf (by simp [tbufBytes]), bitsToBin_length]
    split
    · next ha =>
      rw [getD_bitsToBin ha]
      cases rs <;> rfl
    · rfl

/-- Settles O20: each of the three ranges of codes has its values, a code in none of them fails every test. -/
theorem hexDigits : Obligations.HexDigits := by
  refine ⟨by decide, by decide, by decide, fun c hdigit hupper hlower => ?other, fun d hd => if_pos hd,
    fun d hd => if_neg (by omega), hexVal_hexChar⟩
  case other => rw [hexVal, if_neg hdigit, if_neg hupper, if_neg hlower]

end

section
/-! SUPPORT. The datapath of the key_schedule_generator (41_key_schedule.md R142 to R148), position by position. -/

namespace Sys2Proof.Machine

/-! ### The two halves of a value -/

/-- The more significant part of a value has its first positions. -/
theorem getMsbD_extract_high {m n j : Nat} (hj : j < m) (x : BitVec (m + n)) :
    (x.extractLsb' n m).getMsbD j = x.getMsbD j := by
  have hpos : n + (m - 1 - j) = m + n - 1 - j := by omega
  have hin : j < m + n := by omega
  have hlow : m - 1 - j < m := by omega
  simp only [BitVec.getMsbD_eq_getLsbD, BitVec.getLsbD_extractLsb', hj, hin, hlow, hpos, decide_true, Bool.true_and]

/-- The less significant part of a value has the positions after those. -/
theorem getMsbD_extract_low {m n j : Nat} (hj : j < n) (x : BitVec (m + n)) :
    (x.extractLsb' 0 n).getMsbD j = x.getMsbD (m + j) := by
  have hpos : 0 + (n - 1 - j) = m + n - 1 - (m + j) := by omega
  have hin : m + j < m + n := by omega
  have hlow : n - 1 - j < n := by omega
  simp only [BitVec.getMsbD_eq_getLsbD, BitVec.getLsbD_extractLsb', hj, hin, hlow, hpos, decide_true, Bool.true_and]

/-! ### PC1, the rotations and PC2 -/

theorem getMsbD_pc1Halves_fst (k : Word64) (j : Fin 28) :
    (pc1Halves k).1.getMsbD j.val = k.getMsbD (pc1Table[j.val] - 1) :=
  (getMsbD_extract_high (m := 28) (n := 28) j.isLt (permute pc1Table k)).trans (getMsbD_permute _ _ _ (by omega))

theorem getMsbD_pc1Halves_snd (k : Word64) (j : Fin 28) :
    (pc1Halves k).2.getMsbD j.val = k.getMsbD (pc1Table[28 + j.val] - 1) :=
  (getMsbD_extract_low (m := 28) (n := 28) j.isLt (permute pc1Table k)).trans (getMsbD_permute _ _ _ (by omega))

/-- A value is the permutation by a table when each of its positions is the one the table names. -/
theorem permute_eq_of_positions {w n : Nat} {t : Vector Nat n} {v : BitVec w} {o : BitVec n}
    (h : ∀ j : Fin n, v.getMsbD (t[j] - 1) = o.getMsbD j.val) : permute t v = o :=
  BitVec.eq_of_getMsbD_eq fun j hj => (getMsbD_permute t v j hj).trans (h ⟨j, hj⟩)

/-- The two halves are cut from the permuted key (R142). -/
theorem pc1Halves_of_permute {k : Word64} {cd : BitVec 56} (h : permute pc1Table k = cd) :
    pc1Halves k = (cd.extractLsb' 28 28, cd.extractLsb' 0 28) := h ▸ rfl

/-- The example of R142, position by position. -/
theorem pc1Halves_example : pc1Halves 0x133457799BBCDFF1#64 = (0xF0CCAAF#28, 0x556678F#28) :=
  pc1Halves_of_permute (cd := 0xF0CCAAF556678F#56) (permute_eq_of_positions (by decide))

/-- The example of R147, position by position. -/
theorem pc2Subkey_example : pc2Subkey (0xE19955F#28, 0xAACCF1E#28) = 0x1B02EFFC7072#48 :=
  permute_eq_of_positions (by decide)

theorem halvesAfter_zero (k : Word64) : halvesAfter k 0 = pc1Halves k := rfl

theorem halvesAfter_succ (k : Word64) (i : Fin 16) :
    halvesAfter k (i.val + 1) = rotateHalves i (halvesAfter k i.val) := dif_pos i.isLt

theorem getElem_keySchedule (k : Word64) (i : Nat) (h : i < 16) :
    (keySchedule k)[i] = pc2Subkey (halvesAfter k (i + 1)) := Vector.getElem_ofFn h

/-- The halves depend on the key through those that PC1 selects only. -/
theorem halvesAfter_congr {k k' : Word64} (h : pc1Halves k = pc1Halves k') (n : Nat) :
    halvesAfter k n = halvesAfter k' n := by
  induction n with
  | zero => exact h
  | succ n ih => exact congrArg (fun cd => if h : n < 16 then rotateHalves ⟨n, h⟩ cd else cd) ih

/-- So does the schedule. -/
theorem keySchedule_congr {k k' : Word64} (h : pc1Halves k = pc1Halves k') : keySchedule k = keySchedule k' :=
  congrArg Vector.ofFn (funext fun i => congrArg pc2Subkey (halvesAfter_congr h (i + 1)))

/-- The output and the trace of a block depend on the key through its schedule only (43_block_cipher.md R220, R221). -/
theorem cipherBlock_congr {k k' : Word64} (h : keySchedule k = keySchedule k') (m : Mode) (b : Word64) :
    cipherBlock m b k = cipherBlock m b k' := by
  delta cipherBlock
  rw [h]

/-! ### The rotations accumulate (R145) -/

theorem shiftTable_lt : ∀ i : Fin 16, shiftTable[i] < 28 := by decide

/-- `SHIFT[1] + ... + SHIFT[i]`, one amount more. -/
theorem sum_take_shiftTable_succ (i : Fin 16) :
    (shiftTable.toList.take (i.val + 1)).sum = (shiftTable.toList.take i.val).sum + shiftTable[i] := by
  rw [List.take_add_one]
  simp

/-- Rotating a half that is `x` rotated by `n`: the amounts add up. -/
theorem getMsbD_rotl28_of_rotated {x y : KeyHalf} {n m : Nat} (hm : m < 28)
    (h : ∀ j : Fin 28, y.getMsbD j.val = x.getMsbD ((j.val + n) % 28)) (j : Fin 28) :
    (rotl28 y m).getMsbD j.val = x.getMsbD ((j.val + (n + m)) % 28) := by
  have hpos : ((j.val + m) % 28 + n) % 28 = (j.val + (n + m)) % 28 := by omega
  rw [getMsbD_rotl28 y m j.val hm j.isLt, h ⟨(j.val + m) % 28, by omega⟩, hpos]

theorem getMsbD_halvesAfter (k : Word64) {i : Nat} (hi : i ≤ 16) :
    (∀ j : Fin 28, (halvesAfter k i).1.getMsbD j.val =
      (pc1Halves k).1.getMsbD ((j.val + (shiftTable.toList.take i).sum) % 28)) ∧
    (∀ j : Fin 28, (halvesAfter k i).2.getMsbD j.val =
      (pc1Halves k).2.getMsbD ((j.val + (shiftTable.toList.take i).sum) % 28)) := by
  induction i with
  | zero => simp [halvesAfter_zero, Nat.mod_eq_of_lt]
  | succ i ih =>
    obtain ⟨hc, hd⟩ := ih (by omega)
    have hshift := shiftTable_lt ⟨i, hi⟩
    rw [halvesAfter_succ k ⟨i, hi⟩, sum_take_shiftTable_succ ⟨i, hi⟩]
    exact ⟨getMsbD_rotl28_of_rotated hshift hc, getMsbD_rotl28_of_rotated hshift hd⟩

/-! ### The parity bits (R143) -/

/-- Permute does not see the positions its table does not name. -/
theorem permute_and {w n : Nat} (t : Vector Nat n) (v mask : BitVec w)
    (h : ∀ j : Fin n, mask.getMsbD (t[j] - 1) = true) : permute t (v &&& mask) = permute t v := by
  apply BitVec.eq_of_getMsbD_eq
  intro j hj
  have hmask : mask.getMsbD (t[j] - 1) = true := h ⟨j, hj⟩
  rw [getMsbD_permute t _ j hj, getMsbD_permute t _ j hj, BitVec.getMsbD_and, hmask, Bool.and_true]

/-- No entry of PC1 names a parity bit. -/
theorem pc1Table_skips_parity :
    ∀ j : Fin 56, (0xFEFEFEFEFEFEFEFE#64).getMsbD (pc1Table[j] - 1) = true := by decide

theorem pc1Halves_and_parityMask (k : Word64) : pc1Halves (k &&& 0xFEFEFEFEFEFEFEFE#64) = pc1Halves k :=
  pc1Halves_of_permute (permute_and pc1Table k _ pc1Table_skips_parity)

end Sys2Proof.Machine
end

section
/-! SUPPORT. The steps KS_PC1 and KS_ROT (41_key_schedule.md R152, R153): the equation of each, and the work they have
done after `n` rotations. -/

namespace Sys2Proof.Machine

theorem phaseStep_ksPc1 {s : State} (hp : s.phase = .ksPc1) : phaseStep s = .next s.stepKsPc1 := by
  unfold phaseStep
  rw [hp]

theorem phaseStep_ksRot {s : State} {i : Fin 16} (hp : s.phase = .ksRot) (hr : s.rnd.toNat = i.val + 1) :
    phaseStep s = .next (s.stepKsRot i) := by
  unfold phaseStep
  rw [hp, (roundSlot_eq_some _ _).mpr hr]

/-- C and D are the halves after `n` rotations of `KEY`, and the first `n` subkeys are in SK. -/
def State.rotatedTo (s : State) (n : Nat) : Prop :=
  (s.c, s.d) = halvesAfter s.key n ∧ ∀ i : Fin 16, i.val < n → s.sk[i] = (keySchedule s.key)[i]

theorem stepKsPc1_rotatedTo (s : State) : s.stepKsPc1.rotatedTo 0 :=
  ⟨rfl, fun _ hi => absurd hi (Nat.not_lt_zero _)⟩

/-- One rotation more: the new subkey is `K_{i+1}`, the others stay (R153). -/
theorem rotateAndSelect_rotatedTo {s : State} {i : Fin 16} (h : s.rotatedTo i.val) :
    (s.rotateAndSelect i).rotatedTo (i.val + 1) := by
  obtain ⟨hhalves, hkeys⟩ := h
  have hnew : rotateHalves i (s.c, s.d) = halvesAfter s.key (i.val + 1) := by rw [hhalves, halvesAfter_succ]
  refine ⟨hnew, fun j hj => ?subkey⟩
  case subkey =>
    simp only [State.rotateAndSelect_sk, State.rotateAndSelect_key, hnew, Fin.getElem_fin]
    by_cases hij : i.val = j.val
    · simp [hij, getElem_keySchedule]
    · rw [Vector.getElem_set_ne _ _ hij]
      exact hkeys j (by omega)

/-- After the sixteenth rotation the whole schedule is in SK. -/
theorem subkeysCurrent_of_rotatedTo {s : State} (h : s.rotatedTo 16) : s.subkeysCurrent :=
  Vector.ext fun i hi => h.2 ⟨i, hi⟩ hi

/-- The sixteenth rotation ends KEYSCHED with the whole schedule in SK. -/
theorem stepKsRot_last {s : State} (h : s.rotatedTo 15) (ho : s.op = .keysched) :
    s.stepKsRot 15 = { s.endCommand with
      c := (rotateHalves 15 (s.c, s.d)).1, d := (rotateHalves 15 (s.c, s.d)).2
      sk := keySchedule s.key, skv := true } := by
  have hkeys : (s.rotateAndSelect 15).sk = keySchedule s.key :=
    subkeysCurrent_of_rotatedTo (rotateAndSelect_rotatedTo (i := 15) h)
  rw [stepKsRot_ends s 15 (by decide) ho, ← hkeys]
  rfl

end Sys2Proof.Machine
end

section
/-! SUPPORT. KEYSCHED (41_key_schedule.md R151) when CORE is ready, and the run of its steps when the host does
nothing. -/

namespace Sys2Proof.Machine

/-- The state after the acceptance of KEYSCHED. -/
def State.acceptKeysched (s : State) : State := { s.beginCommand .keysched .ksPc1 with skv := false }

theorem exec_keysched_ready {s : State} (hs : s.ready) :
    exec .keysched s = .next (if s.keyw then s.acceptKeysched else s.raiseFault .noKey) :=
  congrArg _ (gateWrite_of_ready hs _)

/-- `t` is `s` with `n` rotations of the key schedule done: it differs from `s` in C, D, SK, SEQ and the host side only,
and the host has nothing to do. -/
def State.Rotating (s : State) (n : Nat) (t : State) : Prop :=
  t.rotatedTo n ∧ t.env.script = [] ∧
    ∃ c d sk e, t = { s with c, d, sk, phase := .ksRot, rnd := BitVec.ofNat 5 (n + 1), env := e }

variable {s t : State}

theorem State.Rotating.busy_eq {n : Nat} (h : s.Rotating n t) : t.busy = s.busy := by
  obtain ⟨_, _, c, d, sk, e, rfl⟩ := h
  rfl

theorem State.Rotating.op_eq {n : Nat} (h : s.Rotating n t) : t.op = s.op := by
  obtain ⟨_, _, c, d, sk, e, rfl⟩ := h
  rfl

/-- The step of a busy CORE in KS_ROT after `i` rotations. -/
theorem State.Rotating.step_eq {i : Fin 16} (h : s.Rotating i.val t) (hb : s.busy = true) :
    step t = .next (t.sequencerTook.stepKsRot i) := by
  have hbusy : t.busy = true := h.busy_eq.trans hb
  obtain ⟨_, hquiet, c, d, sk, e, rfl⟩ := h
  exact (step_of_busy _ hbusy hquiet).trans (phaseStep_ksRot rfl (Nat.mod_eq_of_lt (by omega)))

/-- A rotation before the sixteenth goes on to the next. -/
theorem State.Rotating.next {i : Fin 16} (h : s.Rotating i.val t) (hi : i.val < 15) :
    s.Rotating (i.val + 1) (t.sequencerTook.stepKsRot i) := by
  obtain ⟨hwork, hquiet, c, d, sk, e, rfl⟩ := h
  rw [stepKsRot_between _ i hi]
  exact ⟨rotateAndSelect_rotatedTo hwork, hquiet, _, _, _, _, rfl⟩

/-- From KS_PC1, with no host action to come, `n + 1` steps do `n` rotations, as long as `n` is at most 15. -/
theorem run_rotations (hb : s.busy = true) (hp : s.phase = .ksPc1) (he : s.env.script = []) {n : Nat} (hn : n ≤ 15) :
    ∃ t : State, core.run (n + 1) s = .next t ∧ s.Rotating n t := by
  induction n with
  | zero =>
    have hstep : step s = .next s.sequencerTook.stepKsPc1 := (step_of_busy s hb he).trans (phaseStep_ksPc1 hp)
    exact ⟨_, run_next 0 _ _ hstep, stepKsPc1_rotatedTo _, he, _, _, _, _, rfl⟩
  | succ n ih =>
    obtain ⟨t, hrun, ht⟩ := ih (by omega)
    have hstep := ht.step_eq (i := ⟨n, by omega⟩) hb
    exact ⟨_, (run_add (n + 1) 1 _ _ hrun).trans (run_next 0 _ _ hstep), ht.next (i := ⟨n, by omega⟩) hn⟩

/-- The seventeen steps of KEYSCHED: the sixteenth rotation ends the command. -/
theorem run_keysched (hb : s.busy = true) (hp : s.phase = .ksPc1) (ho : s.op = .keysched) (he : s.env.script = []) :
    ∃ c d e, core.run 17 s =
      .next { s.endCommand with c, d, sk := keySchedule s.key, skv := true, env := e } := by
  obtain ⟨t, hrun, ht⟩ := run_rotations hb hp he (Nat.le_refl 15)
  have hlast : core.run 17 s = .next (t.sequencerTook.stepKsRot 15) :=
    (run_add 16 1 _ _ hrun).trans (run_next 0 _ _ (ht.step_eq (i := 15) hb))
  have hop : t.op = .keysched := ht.op_eq.trans ho
  obtain ⟨hwork, _, hframe⟩ := ht
  rw [stepKsRot_last (s := t.sequencerTook) hwork hop] at hlast
  obtain ⟨c, d, sk, e, rfl⟩ := hframe
  exact ⟨_, _, _, hlast⟩

end Sys2Proof.Machine
end

section
/-! SUPPORT. The subkey file is current in every reachable state with `SKV = 1` (41_key_schedule.md R156): the
invariant that every step keeps, and the induction over runs. -/

namespace Sys2Proof.Machine

/-- A predicate that every step keeps holds after every run. -/
theorem run_induction {P : State → Prop} (hkeep : ∀ s t, P s → step s = .next t → P t) {n : Nat} {s t : State}
    (hs : P s) (h : core.run n s = .next t) : P t := by
  induction n generalizing s with
  | zero => cases h; exact hs
  | succ n ih =>
    cases hstep : core.step s with
    | next u => exact ih (hkeep s u hs hstep) (by rwa [run_next _ _ _ hstep] at h)
    | fault r => simp only [Host.Core.run, hstep] at h; cases h
    | refused r => simp only [Host.Core.run, hstep] at h; cases h

/-- The part of a legal state that keeps the subkey file current: KEY changes in IDLE only, the schedule is derived
while `SKV = 0`, and what KS_ROT has done so far is right. -/
def State.scheduleLegal (s : State) : Prop :=
  (s.phase ≠ .idle → s.busy = true) ∧
  (s.phase = .ksPc1 ∨ s.phase = .ksRot → s.skv = false) ∧
  (s.phase = .ksRot → s.rotatedTo (s.rnd.toNat - 1)) ∧
  (s.skv = true → s.subkeysCurrent)

variable {s t : State}

/-- In IDLE only the subkey file matters. -/
theorem scheduleLegal_of_idle (hp : s.phase = .idle) (hsk : s.skv = true → s.subkeysCurrent) : s.scheduleLegal :=
  ⟨absurd hp, by simp [hp], by simp [hp], hsk⟩

/-- In the block phases only BUSY and the subkey file matter. -/
theorem scheduleLegal_of_block (hp : s.phase ≠ .ksPc1 ∧ s.phase ≠ .ksRot) (hb : s.busy = true)
    (hsk : s.skv = true → s.subkeysCurrent) : s.scheduleLegal :=
  ⟨fun _ => hb, by simp [hp], by simp [hp], hsk⟩

theorem scheduleLegal_withEnv (h : s.scheduleLegal) (e : HostSide) : ({ s with env := e } : State).scheduleLegal := h

theorem toReset_scheduleLegal (s : State) : s.toReset.scheduleLegal := scheduleLegal_of_idle rfl (nomatch ·)

theorem hostEffect_keeps_scheduleLegal (h : s.scheduleLegal) (hst : HostEffect s t) : t.scheduleLegal := by
  have ⟨hbusy, _, _, hsk⟩ := h
  cases hst with
  | same | hostSide | text | tbufWord | din => exact h
  | raise => exact scheduleLegal_of_idle rfl hsk
  | reset => exact toReset_scheduleLegal s
  | key v hb =>
    have hidle : s.phase = .idle := by
      by_contra hp
      exact absurd (hb.symm.trans (hbusy hp)) (by decide)
    exact scheduleLegal_of_idle hidle (nomatch ·)
  | keysched => exact ⟨fun _ => rfl, fun _ => rfl, (nomatch ·), (nomatch ·)⟩
  | block o m =>
    cases hskv : s.skv with
    | true => exact scheduleLegal_of_block ⟨(nomatch ·), (nomatch ·)⟩ rfl hsk
    | false => exact ⟨fun _ => rfl, fun _ => hskv, (nomatch ·), hsk⟩

theorem stepKsRot_keeps_scheduleLegal {i : Fin 16} (h : s.scheduleLegal) (hp : s.phase = .ksRot)
    (hr : s.rnd.toNat = i.val + 1) : (s.stepKsRot i).scheduleLegal := by
  obtain ⟨hbusy, hunscheduled, hrot, _⟩ := h
  have hb : s.busy = true := hbusy (by simp [hp])
  have hwork : (s.rotateAndSelect i).rotatedTo (i.val + 1) :=
    rotateAndSelect_rotatedTo (by simpa [hr] using hrot hp)
  by_cases hi : i.val < 15
  · rw [stepKsRot_between s i hi]
    have hnext : (BitVec.ofNat 5 (i.val + 2)).toNat - 1 = i.val + 1 := by simp; omega
    have hskv : s.skv = false := hunscheduled (.inr hp)
    exact ⟨fun _ => hb, fun _ => hskv, fun _ => hnext ▸ hwork, fun hs => absurd (hskv.symm.trans hs) (by decide)⟩
  · have hsixteen : i.val + 1 = 16 := by omega
    have hcurrent : (s.rotateAndSelect i).subkeysCurrent := subkeysCurrent_of_rotatedTo (hsixteen ▸ hwork)
    by_cases ho : s.op = .keysched
    · rw [stepKsRot_ends s i hi ho]
      exact scheduleLegal_of_idle rfl fun _ => hcurrent
    · rw [stepKsRot_goes_on s i hi ho]
      exact scheduleLegal_of_block ⟨(nomatch ·), (nomatch ·)⟩ hb fun _ => hcurrent

theorem phaseStep_keeps_scheduleLegal (h : s.scheduleLegal) (hst : phaseStep s = .next t) : t.scheduleLegal := by
  have ⟨hbusy, hunscheduled, _, hsk⟩ := h
  rcases phaseStep_cases hst with ⟨hp, rfl⟩ | ⟨i, hp, hr, rfl⟩ | ⟨hp, rfl⟩ | ⟨i, m, hp, _, _, rfl⟩ | ⟨_, rfl⟩
  · exact ⟨fun _ => hbusy (by simp [hp]), fun _ => hunscheduled (.inl hp), fun _ => stepKsPc1_rotatedTo s, hsk⟩
  · exact stepKsRot_keeps_scheduleLegal h hp hr
  · exact scheduleLegal_of_block ⟨(nomatch ·), (nomatch ·)⟩ (hbusy (by simp [hp])) hsk
  · have hb : s.busy = true := hbusy (by simp [hp])
    by_cases hi : i.val < 15
    · rw [stepRound_between m s i hi]
      exact scheduleLegal_of_block ⟨(nomatch ·), (nomatch ·)⟩ hb hsk
    · rw [stepRound_ends m s i hi]
      exact scheduleLegal_of_block ⟨(nomatch ·), (nomatch ·)⟩ hb hsk
  · exact scheduleLegal_of_idle rfl hsk

theorem step_keeps_scheduleLegal (h : s.scheduleLegal) (hst : step s = .next t) : t.scheduleLegal := by
  rcases step_cases hst with ⟨_, hseq⟩ | ⟨e, heff⟩ | ⟨_, _, rfl⟩
  · exact phaseStep_keeps_scheduleLegal (scheduleLegal_withEnv h _) hseq
  · exact hostEffect_keeps_scheduleLegal (scheduleLegal_withEnv h e) heff
  · exact h

end Sys2Proof.Machine
end

section
/-! CERTIFICATE. The statements about the key_schedule_generator (41_key_schedule.md). -/

open Sys2Proof Sys2Proof.Machine

/-- Settles O28: a half of the permuted key is a run of PC1's positions. -/
theorem pc1SelectsTheKeyHalves : Obligations.Pc1SelectsTheKeyHalves :=
  ⟨fun k j => ⟨getMsbD_pc1Halves_fst k j, getMsbD_pc1Halves_snd k j⟩, pc1Halves_example⟩

/-- Settles O29: by induction on the number of rotations, whose amounts add up modulo 28. -/
theorem rotationsAccumulate : Obligations.RotationsAccumulate :=
  ⟨halvesAfter_succ, fun k _ hi j => ⟨(getMsbD_halvesAfter k hi).1 j, (getMsbD_halvesAfter k hi).2 j⟩, by decide,
    by decide⟩

/-- Settles O30: a subkey is the permutation by PC2 of its joined halves. -/
theorem pc2SelectsTheSubkeys : Obligations.Pc2SelectsTheSubkeys := by
  refine ⟨fun k i j => ?_, pc2Subkey_example⟩
  rw [Fin.getElem_fin, getElem_keySchedule]
  exact getMsbD_permute _ _ _ j.isLt

/-- Settles O31: PC1 names no parity bit, and nothing else reads the key. -/
theorem parityBitsHaveNoEffect : Obligations.ParityBitsHaveNoEffect := by
  intro k k' h
  have hpc1 : pc1Halves k = pc1Halves k' := by rw [← pc1Halves_and_parityMask k, h, pc1Halves_and_parityMask]
  exact ⟨keySchedule_congr hpc1, cipherBlock_congr (keySchedule_congr hpc1)⟩

/-- Settles O32: in KS_PC1 the sequencer's step is that of PC1. -/
theorem ksPc1Step : Obligations.KsPc1Step := fun _ hp => phaseStep_ksPc1 hp

/-- Settles O33: the three ends of the step, by RND and then by OP. -/
theorem ksRotStep : Obligations.KsRotStep := by
  intro s i hp hr
  have hrnd : s.rnd.toNat = i.val + 1 := hr ▸ Nat.mod_eq_of_lt (by omega)
  rw [phaseStep_ksRot hp hrnd]
  refine ⟨fun hi => ?between, fun hi ho => ?ends, fun hi ho => ?goesOn⟩
  case between => rw [stepKsRot_between s i (by omega)]; rfl
  case ends => rw [stepKsRot_ends s i (by omega) ho]; rfl
  case goesOn => rw [stepKsRot_goes_on s i (by omega) ho]; rfl

/-- Settles O35: KS_PC1, fifteen rotations that go on and one that ends the command; each writes C, D, SK and SEQ, and
the last the flags. -/
theorem keyschedDerivesTheSchedule : Obligations.KeyschedDerivesTheSchedule := by
  intro s hs hscript
  refine ⟨fun hk => ?noKey, fun hk => ⟨s.acceptKeysched, ?accepted, rfl, rfl, rfl, rfl, rfl, rfl,
    fun n hn => ?busy, ?ends⟩⟩
  case noKey => simp [exec_keysched_ready hs, hk]
  case accepted => simp [exec_keysched_ready hs, hk]
  case busy =>
    cases n with
    | zero => exact ⟨_, rfl, rfl⟩
    | succ n =>
      obtain ⟨u, hrun, hu⟩ := run_rotations (s := s.acceptKeysched) rfl rfl hscript (n := n) (by omega)
      exact ⟨u, hrun, hu.busy_eq⟩
  case ends =>
    obtain ⟨c, d, e, hrun⟩ := run_keysched (s := s.acceptKeysched) rfl rfl rfl hscript
    obtain ⟨_, hfault⟩ := hs
    exact ⟨_, hrun, rfl, rfl, rfl, rfl, rfl, rfl, rfl, hfault, rfl, rfl, rfl, rfl, rfl, rfl, rfl, rfl, rfl, rfl, rfl,
      rfl⟩

/-- Settles O54: reset has `SKV = 0`, and every step keeps the schedule legal. -/
theorem reachableSubkeysAreCurrent : Obligations.ReachableSubkeysAreCurrent := by
  intro e n t hrun hskv i
  have hlegal : t.scheduleLegal :=
    run_induction (fun _ _ => step_keeps_scheduleLegal) (toReset_scheduleLegal { State.reset with env := e }) hrun
  obtain ⟨_, _, _, hsk⟩ := hlegal
  rw [hsk hskv]

end

section
/-! SUPPORT. The feistel_round_engine (42_round_engine.md R172 to R189): the two permutations of a round lose nothing,
and the nibbles of JOIN4. -/

namespace Sys2Proof.Machine

/-! ### EXPAND and PPERM -/

/-- A table that names every position of its argument loses nothing. -/
theorem permute_injective {w n : Nat} {t : Vector Nat n} (h : ∀ p : Fin w, ∃ j : Fin n, t[j] - 1 = p.val) :
    Function.Injective (permute t : BitVec w → BitVec n) := by
  intro u v huv
  apply BitVec.eq_of_getMsbD_eq
  intro p hp
  obtain ⟨j, hj⟩ := h ⟨p, hp⟩
  calc u.getMsbD p
    _ = (permute t u).getMsbD j.val := by rw [getMsbD_permute t u j.val j.isLt, ← Fin.getElem_fin, hj]
    _ = (permute t v).getMsbD j.val := by rw [huv]
    _ = v.getMsbD p := by rw [getMsbD_permute t v j.val j.isLt, ← Fin.getElem_fin, hj]

/-- Every position of `R` occurs in `E` (R172). -/
theorem eTable_names_all : ∀ p : Fin 32, ∃ j : Fin 48, eTable[j] - 1 = p.val := by decide

/-- Every position occurs in `P` (R187). -/
theorem pTable_names_all : ∀ p : Fin 32, ∃ j : Fin 32, pTable[j] - 1 = p.val := by decide

theorem expand_injective : Function.Injective expand := permute_injective eTable_names_all

theorem pperm_injective : Function.Injective pperm := permute_injective pTable_names_all

/-- PPERM maps a finite set into itself, so it misses no value. -/
theorem pperm_surjective : Function.Surjective pperm := Finite.surjective_of_injective pperm_injective

/-- The example of R172, position by position. -/
theorem expand_example : expand 0xF0AAF0AA#32 = 0x7A15557A1555#48 := permute_eq_of_positions (by decide)

theorem expand_zero : expand 0#32 = 0#48 := permute_eq_of_positions (by decide)

/-- The example of R187, position by position. -/
theorem pperm_example : pperm 0x5C82B597#32 = 0x234AA9BB#32 := permute_eq_of_positions (by decide)

/-! ### The boxes and F -/

/-- The row is `2*g[5] + g[0]` (R175). -/
theorem toNat_groupRow (g : BitVec 6) : (groupRow g).toNat = 2 * (g.getLsbD 5).toNat + (g.getLsbD 0).toNat := by
  revert g; decide

theorem getElem_sboxLookups (x : BitVec 48) (b : Fin 8) : (sboxLookups x)[b] = sboxLookup x b :=
  Vector.getElem_ofFn b.isLt

/-- Nibble `b + 1` of JOIN4 is the output of box `b + 1`, box 1 most significant (R185). -/
theorem extract_joinOutputs (u : Vector SboxLookup 8) (b : Fin 8) :
    (joinOutputs u).extractLsb' (28 - 4 * b.val) 4 = u[b].output := by
  unfold joinOutputs
  fin_cases b
  -- Drop the nibbles below the one asked for; it is then the lowest, or (box 1) the only one left.
  all_goals repeat rw [BitVec.extractLsb'_append_eq_of_le (by decide)]
  · exact BitVec.extractLsb'_eq_self
  all_goals exact extract_append_low _ _

/-- The corner of R188 before PPERM: every group is `000000`, every output the first entry of its box. -/
theorem joinOutputs_zero : joinOutputs (sboxLookups 0#48) = 0xEFA72C4D#32 := by decide

/-- The corner of R188. -/
theorem feistelF_zero : feistelF 0#32 0#48 = 0xD8D8DBBC#32 := by
  have hmix : keyMix (expand 0#32) 0#48 = 0#48 := by rw [expand_zero]; rfl
  rw [feistelF, hmix, joinOutputs_zero]
  exact permute_eq_of_positions (by decide)

/-- The round of the example of R189: the outputs of its boxes are the argument of PPERM in the example of R187. -/
theorem feistelF_example : feistelF 0xF0AAF0AA#32 0x1B02EFFC7072#48 = 0x234AA9BB#32 := by
  have hboxes : joinOutputs (sboxLookups (keyMix 0x7A15557A1555#48 0x1B02EFFC7072#48)) = 0x5C82B597#32 := by decide
  rw [feistelF, expand_example, hboxes, pperm_example]

end Sys2Proof.Machine
end

section
/-! CERTIFICATE. The statements about the feistel_round_engine (42_round_engine.md). -/

open Sys2Proof Sys2Proof.Machine

/-- Settles O36: every position of the argument occurs in `E`, so equal expansions have equal arguments. -/
theorem expandSelectsAndIsInjective : Obligations.ExpandSelectsAndIsInjective :=
  ⟨fun r j => getMsbD_permute eTable r j.val j.isLt, fun _ _ h => expand_injective h, expand_example,
    permute_eq_of_positions (by decide), permute_eq_of_positions (by decide), permute_eq_of_positions (by decide),
    expand_zero⟩

/-- Settles O37: every position occurs in `P`, so PPERM is injective, and an injection of a finite set into itself is
onto. -/
theorem ppermSelectsAndIsBijective : Obligations.PpermSelectsAndIsBijective :=
  ⟨fun x j => getMsbD_permute pTable x j.val j.isLt, fun _ _ h => pperm_injective h, pperm_surjective, pperm_example,
    permute_eq_of_positions (by decide), permute_eq_of_positions (by decide)⟩

/-- Settles O38: the argument of PPERM is what JOIN4 makes of the eight lookups in `E(R) xor K`. -/
theorem fIsTheCompositeOfItsSteps : Obligations.FIsTheCompositeOfItsSteps := by
  refine ⟨fun r k => ⟨joinOutputs (sboxLookups (expand r ^^^ k)), rfl, fun b => ?nibble⟩, feistelF_zero⟩
  case nibble =>
    refine ⟨(groupRow _).toFin, (groupColumn _).toFin, toNat_groupRow _, rfl, ?_⟩
    rw [extract_joinOutputs, getElem_sboxLookups]
    rfl

/-- Settles O39: each field of the record is the value named, and lookup `b` is that of box `b + 1`. -/
theorem roundTransformReturns : Obligations.RoundTransformReturns := by
  refine ⟨fun l r k i => ⟨rfl, rfl, rfl, rfl, rfl, rfl, rfl, rfl, fun b => getElem_sboxLookups _ b, rfl, rfl, rfl⟩, rfl,
    ?right⟩
  case right => exact congrArg (0xCC00CCFF#32 ^^^ ·) feistelF_example

end

section
/-! SUPPORT. The datapath of the block_cipher_orchestrator (43_block_cipher.md R215 to R223): the tables IP and FP, the
halves after a round, the parts of a BlockResult. -/

namespace Sys2Proof.Machine

/-! ### IP and FP (R215) -/

/-- `FP[IP[j]] = j`. -/
theorem fpTable_ipTable :
    ∀ j : Fin 64, 1 ≤ ipTable[j] ∧ ipTable[j] ≤ 64 ∧ fpTable.toList.getD (ipTable[j] - 1) 0 = j.val + 1 := by decide

/-- `IP[FP[j]] = j`. -/
theorem ipTable_fpTable :
    ∀ j : Fin 64, 1 ≤ fpTable[j] ∧ fpTable[j] ≤ 64 ∧ ipTable.toList.getD (fpTable[j] - 1) 0 = j.val + 1 := by decide

/-- A table undoes the one it inverts, both counting positions from 1. -/
theorem permute_permute_of_inverse {w : Nat} {t u : Vector Nat w}
    (h : ∀ j : Fin w, 1 ≤ t[j] ∧ t[j] ≤ w ∧ u.toList.getD (t[j] - 1) 0 = j.val + 1) (v : BitVec w) :
    permute t (permute u v) = v := by
  refine permute_permute t u (fun j => ?_) v
  obtain ⟨hpos, hle, hinv⟩ := h j
  exact ⟨by omega, by omega⟩

/-! ### The rounds and the BlockResult -/

theorem halvesAfterRounds_succ (m : Mode) (ks : Vector Subkey 16) (l r : HalfBlock) (i : Fin 16) :
    halvesAfterRounds m ks l r (i.val + 1) =
      (newLeft (halvesAfterRounds m ks l r i.val).2,
        newRight (halvesAfterRounds m ks l r i.val).1 (halvesAfterRounds m ks l r i.val).2 ks[subkeySlot m i]) :=
  dif_pos i.isLt

/-- Record `i + 1` of a BlockResult is that of the round on the halves after `i` rounds (R220). -/
theorem getElem_cipherBlock_trace (s : State) (m : Mode) (i : Fin 16) :
    (cipherBlock m s.din s.key).trace[i] =
      (roundTransform (s.blockHalves m i.val).1 (s.blockHalves m i.val).2 (keySchedule s.key)[subkeySlot m i]
        (roundIndex i)).trace :=
  Vector.getElem_ofFn i.isLt

/-- The output Block is FP of the last halves, the right one first (R219). -/
theorem cipherBlock_output (s : State) (m : Mode) :
    (cipherBlock m s.din s.key).output =
      finalPermutation (preOutput (s.blockHalves m 16).1 (s.blockHalves m 16).2) := rfl

end Sys2Proof.Machine
end

section
/-! SUPPORT. The steps IPERM, ROUND and FPERM (43_block_cipher.md R228 to R230): the equation of each, and the work they
have done after `n` rounds. -/

namespace Sys2Proof.Machine

theorem phaseStep_iperm {s : State} (hp : s.phase = .iperm) : phaseStep s = .next s.stepIperm := by
  unfold phaseStep
  rw [hp]

theorem phaseStep_round {s : State} {i : Fin 16} {m : Mode} (hp : s.phase = .round) (hr : s.rnd.toNat = i.val + 1)
    (ho : blockMode s.op = some m) : phaseStep s = .next (s.stepRound m i) := by
  unfold phaseStep
  rw [hp, (roundSlot_eq_some _ _).mpr hr, ho]

theorem phaseStep_fperm {s : State} (hp : s.phase = .fperm) : phaseStep s = .next s.stepFperm := by
  unfold phaseStep
  rw [hp]

/-- The phase after `n` rounds (R229): the next round, or FPERM after the sixteenth. -/
def phaseAfterRounds (n : Nat) : Phase := if n < 16 then .round else .fperm

/-- `RND` after `n` rounds (R229). -/
def rndAfterRounds (n : Nat) : BitVec 5 := if n < 16 then BitVec.ofNat 5 (n + 1) else 0#5

/-- Both ends of ROUND in one equation. -/
theorem stepRound_eq (m : Mode) (s : State) (i : Fin 16) :
    s.stepRound m i = (s.runRound m i).setSeq (phaseAfterRounds (i.val + 1)) (rndAfterRounds (i.val + 1)) := by
  unfold phaseAfterRounds rndAfterRounds
  by_cases hi : i.val < 15
  · rw [stepRound_between m s i hi, if_pos (by omega), if_pos (by omega)]
  · rw [stepRound_ends m s i hi, if_neg (by omega), if_neg (by omega)]

/-- ROUND sets its own bit of TRV and no other. -/
theorem trvBit_runRound (m : Mode) (s : State) (i j : Fin 16) :
    (s.runRound m i).trvBit j = if j = i then true else s.trvBit j := by
  have hbit : (1#16 <<< i.val).getLsbD j.val = decide (j = i) := by revert i j; decide
  rw [State.trvBit, State.runRound_trv, BitVec.getLsbD_or, hbit]
  by_cases hji : j = i
  · simp [hji]
  · simp [hji, State.trvBit]

/-- A block command has a direction. -/
theorem blockMode_of_isBlock {o : Op} (ho : o.isBlock) : ∃ m, blockMode o = some m := by
  rcases ho with rfl | rfl
  · exact ⟨.enc, rfl⟩
  · exact ⟨.dec, rfl⟩

/-- The subkey a round reads: `SK[RND]` for ENC, `SK[17 - RND]` for DEC (R229). -/
theorem getElem_subkeySlot {o : Op} {m : Mode} (ho : blockMode o = some m) (ks : Vector Subkey 16) (i : Fin 16) :
    ks[subkeySlot m i] = if o = .enc then ks[i.val] else ks[15 - i.val] := by
  cases o with
  | none => cases ho
  | keysched => cases ho
  | enc => cases ho; rfl
  | dec =>
    cases ho
    have hslot : (subkeySlot .dec i).val = 15 - i.val := by simp [subkeySlot]
    simp only [Fin.getElem_fin, hslot]
    rfl

/-- L and R are the halves after `n` rounds on `DIN` under `KEY`, the first `n` records are in TR, and TRV marks
these. -/
def State.roundedTo (s : State) (m : Mode) (n : Nat) : Prop :=
  (s.l, s.r) = s.blockHalves m n ∧ s.firstRecords m n ∧ ∀ j : Fin 16, s.trvBit j = true ↔ j.val < n

/-- No round has run after IPERM. -/
theorem stepIperm_roundedTo {s : State} (ht : s.trv = 0#16) (m : Mode) : s.stepIperm.roundedTo m 0 :=
  ⟨rfl, fun _ hj => absurd hj (Nat.not_lt_zero _), by simp [State.trvBit, ht]⟩

/-- One round more: the new record is that of round `i + 1`, the others stay (R229). -/
theorem runRound_roundedTo {s : State} {m : Mode} {i : Fin 16} (hsk : s.subkeysCurrent) (h : s.roundedTo m i.val) :
    (s.runRound m i).roundedTo m (i.val + 1) := by
  obtain ⟨hhalves, hrecords, hmask⟩ := h
  have hround : roundTransform s.l s.r s.sk[subkeySlot m i] (roundIndex i) =
      roundTransform (s.blockHalves m i.val).1 (s.blockHalves m i.val).2 (keySchedule s.key)[subkeySlot m i]
        (roundIndex i) := by rw [← hhalves, hsk]
  refine ⟨?halves, fun j hj => ?record, fun j => ?mask⟩
  case halves =>
    rw [State.runRound_l, State.runRound_r, hround]
    exact (halvesAfterRounds_succ m _ _ _ i).symm
  case record =>
    rw [State.runRound_tr, hround, ← getElem_cipherBlock_trace, Fin.getElem_fin]
    by_cases hij : i.val = j.val
    · simp [hij]
    · rw [Vector.getElem_set_ne _ _ hij]
      exact hrecords j (by omega)
  case mask =>
    rw [trvBit_runRound]
    by_cases hji : j = i
    · simp [hji]
    · rw [if_neg hji, hmask]
      omega

/-- After the sixteenth round, FPERM writes the output Block; TR and TRV are complete. -/
theorem stepFperm_of_roundedTo {s : State} {m : Mode} (h : s.roundedTo m 16) :
    s.stepFperm = { s.endCommand with
      dout := (cipherBlock m s.din s.key).output, tr := (cipherBlock m s.din s.key).trace, trv := 0xFFFF#16 } := by
  obtain ⟨hhalves, hrecords, hmask⟩ := h
  have htr : s.tr = (cipherBlock m s.din s.key).trace := Vector.ext fun j hj => hrecords ⟨j, hj⟩ hj
  have htrv : s.trv = 0xFFFF#16 := by
    apply BitVec.eq_of_getLsbD_eq
    intro j hj
    have hones : ∀ j : Fin 16, (0xFFFF#16).getLsbD j.val = true := by decide
    exact ((hmask ⟨j, hj⟩).mpr hj).trans (hones ⟨j, hj⟩).symm
  rw [cipherBlock_output, ← hhalves, ← htr, ← htrv]
  rfl

end Sys2Proof.Machine
end

section
/-! SUPPORT. ENC and DEC (43_block_cipher.md R226, R227) when CORE is ready, and the run of their steps when the host
does nothing. -/

namespace Sys2Proof.Machine

variable {s t : State} {m : Mode} {n k : Nat}

/-! ### The checks and the acceptance -/

theorem acceptBlock_noKey (o : Op) (hk : s.keyw = false) : s.acceptBlock o m = s.raiseFault .noKey := by
  simp [State.acceptBlock, hk]

theorem acceptBlock_noData (o : Op) (hk : s.keyw = true) (hd : s.dinw = false) :
    s.acceptBlock o m = s.raiseFault .noData := by
  simp [State.acceptBlock, hk, hd]

/-- The state after the acceptance of a block command. -/
def State.acceptedBlock (o : Op) (m : Mode) (s : State) : State :=
  { s.beginCommand o (if s.skv then .iperm else .ksPc1) with
    mode := m, trv := 0#16, tr := Vector.replicate 16 TraceRecord.zero }

theorem acceptBlock_accepts (o : Op) (hk : s.keyw = true) (hd : s.dinw = true) :
    s.acceptBlock o m = s.acceptedBlock o m := by
  simp [State.acceptBlock, State.acceptedBlock, hk, hd]

/-- A block command in direction `m` is in progress and no round of it has run; the host has nothing to do. -/
def State.BlockStarted (m : Mode) (s : State) : Prop :=
  s.busy = true ∧ blockMode s.op = some m ∧ s.trv = 0#16 ∧ s.env.script = []

/-! ### Runs of a busy CORE -/

/-- For the next `k` steps CORE is busy before each, and DOUT keeps its value. -/
def State.busyFor (s : State) (k : Nat) : Prop :=
  ∀ n, n < k → ∃ u, core.run n s = .next u ∧ u.busy = true ∧ u.dout = s.dout

/-- It is enough to look after each step: before the first one CORE is in `s` itself. -/
theorem busyFor_succ (hb : s.busy = true)
    (h : ∀ n, n < k → ∃ u, core.run (n + 1) s = .next u ∧ u.busy = true ∧ u.dout = s.dout) : s.busyFor (k + 1) := by
  intro n hn
  cases n with
  | zero => exact ⟨s, rfl, hb, rfl⟩
  | succ n => exact h n (by omega)

/-- Two stretches of work one after the other. -/
theorem busyFor_add (h : s.busyFor n) (hrun : core.run n s = .next t) (hd : t.dout = s.dout) (ht : t.busyFor k) :
    s.busyFor (n + k) := by
  intro j hj
  by_cases hjn : j < n
  · exact h j hjn
  · obtain ⟨u, hu, hbusy, hdout⟩ := ht (j - n) (by omega)
    have hsplit : core.run (n + (j - n)) s = core.run (j - n) t := run_add n (j - n) s t hrun
    rw [Nat.add_sub_cancel' (by omega), hu] at hsplit
    exact ⟨u, hsplit, hbusy, hdout.trans hd⟩

/-! ### The key schedule before the block (SKV = 0) -/

/-- The sixteenth rotation of a block command goes on to IPERM with the whole schedule in SK. -/
theorem stepKsRot_last_of_block (h : s.rotatedTo 15) (ho : s.op ≠ .keysched) :
    s.stepKsRot 15 = { s.setSeq .iperm 0#5 with
      c := (rotateHalves 15 (s.c, s.d)).1, d := (rotateHalves 15 (s.c, s.d)).2
      sk := keySchedule s.key, skv := true } := by
  have hkeys : (s.rotateAndSelect 15).sk = keySchedule s.key :=
    subkeysCurrent_of_rotatedTo (rotateAndSelect_rotatedTo (i := 15) h)
  rw [stepKsRot_goes_on s 15 (by decide) ho, ← hkeys]
  rfl

theorem State.Rotating.dout_eq (h : s.Rotating n t) : t.dout = s.dout := by
  obtain ⟨_, _, c, d, sk, e, rfl⟩ := h
  rfl

/-- `t` is `s` with the schedule derived and IPERM next: it differs from `s` in C, D, SK, SKV, SEQ and the host side
only, and the host has nothing to do. -/
def State.Scheduled (s t : State) : Prop :=
  t.env.script = [] ∧
    ∃ c d e, t = { s.setSeq .iperm 0#5 with c, d, sk := keySchedule s.key, skv := true, env := e }

/-- The first seventeen steps of a block command with `SKV = 0` derive the schedule. -/
theorem run_schedule (hs : s.BlockStarted m) (hp : s.phase = .ksPc1) :
    s.busyFor 17 ∧ ∃ t, core.run 17 s = .next t ∧ s.Scheduled t := by
  obtain ⟨hb, ho, _, hquiet⟩ := hs
  refine ⟨busyFor_succ hb fun n hn => ?busy, ?ends⟩
  case busy =>
    obtain ⟨u, hrun, hu⟩ := run_rotations hb hp hquiet (n := n) (by omega)
    exact ⟨u, hrun, hu.busy_eq.trans hb, hu.dout_eq⟩
  case ends =>
    obtain ⟨t, hrun, ht⟩ := run_rotations hb hp hquiet (Nat.le_refl 15)
    have hlast : core.run 17 s = .next (t.sequencerTook.stepKsRot 15) :=
      (run_add 16 1 _ _ hrun).trans (run_next 0 _ _ (ht.step_eq (i := 15) hb))
    have hop : t.op ≠ .keysched := fun hkeysched => by rw [← ht.op_eq, hkeysched] at ho; cases ho
    obtain ⟨hwork, hrest, hframe⟩ := ht
    rw [stepKsRot_last_of_block (s := t.sequencerTook) hwork hop] at hlast
    obtain ⟨c, d, sk, e, rfl⟩ := hframe
    exact ⟨_, hlast, hrest, _, _, _, rfl⟩

/-! ### The rounds -/

/-- `t` is `s` with IPERM and `n` rounds done in direction `m`: it differs from `s` in L, R, TR, TRV, SEQ and the host
side only, and the host has nothing to do. -/
def State.Rounding (s : State) (m : Mode) (n : Nat) (t : State) : Prop :=
  t.roundedTo m n ∧ t.env.script = [] ∧
    ∃ l r trv tr e, t = { s with l, r, trv, tr, phase := phaseAfterRounds n, rnd := rndAfterRounds n, env := e }

theorem State.Rounding.busy_eq (h : s.Rounding m n t) : t.busy = s.busy := by
  obtain ⟨_, _, l, r, trv, tr, e, rfl⟩ := h
  rfl

theorem State.Rounding.dout_eq (h : s.Rounding m n t) : t.dout = s.dout := by
  obtain ⟨_, _, l, r, trv, tr, e, rfl⟩ := h
  rfl

/-- The step of a busy CORE before the sixteenth round has run. -/
theorem State.Rounding.step_eq {i : Fin 16} (h : s.Rounding m i.val t) (hs : s.BlockStarted m) :
    step t = .next (t.sequencerTook.stepRound m i) := by
  obtain ⟨hb, ho, _, _⟩ := hs
  have hbusy : t.busy = true := h.busy_eq.trans hb
  obtain ⟨_, hquiet, l, r, trv, tr, e, rfl⟩ := h
  have hphase : phaseAfterRounds i.val = .round := if_pos i.isLt
  have hrnd : (rndAfterRounds i.val).toNat = i.val + 1 := by
    rw [rndAfterRounds, if_pos i.isLt]
    exact Nat.mod_eq_of_lt (by omega)
  exact (step_of_busy _ hbusy hquiet).trans (phaseStep_round hphase hrnd ho)

/-- The step of a busy CORE after the sixteenth round writes the BlockResult. -/
theorem State.Rounding.step_last (h : s.Rounding m 16 t) (hb : s.busy = true) :
    step t = .next { t.sequencerTook.endCommand with
      dout := (cipherBlock m t.din t.key).output, tr := (cipherBlock m t.din t.key).trace, trv := 0xFFFF#16 } := by
  have hbusy : t.busy = true := h.busy_eq.trans hb
  obtain ⟨hwork, hquiet, hframe⟩ := h
  have hphase : t.phase = .fperm := by obtain ⟨l, r, trv, tr, e, rfl⟩ := hframe; rfl
  rw [step_of_busy t hbusy hquiet, phaseStep_fperm (s := t.sequencerTook) hphase,
    stepFperm_of_roundedTo (s := t.sequencerTook) hwork]
  rfl

/-- A round goes on to the next, the sixteenth to FPERM. -/
theorem State.Rounding.next {i : Fin 16} (h : s.Rounding m i.val t) (hsk : s.subkeysCurrent) :
    s.Rounding m (i.val + 1) (t.sequencerTook.stepRound m i) := by
  obtain ⟨hwork, hquiet, l, r, trv, tr, e, rfl⟩ := h
  rw [stepRound_eq]
  exact ⟨runRound_roundedTo hsk hwork, hquiet, _, _, _, _, _, rfl⟩

/-- From IPERM, `n + 1` steps do `n` rounds, as long as `n` is at most 16. -/
theorem run_rounds (hs : s.BlockStarted m) (hp : s.phase = .iperm) (hsk : s.subkeysCurrent) (hn : n ≤ 16) :
    ∃ t : State, core.run (n + 1) s = .next t ∧ s.Rounding m n t := by
  induction n with
  | zero =>
    obtain ⟨hb, _, htrv, hquiet⟩ := hs
    have hstep : step s = .next s.sequencerTook.stepIperm := (step_of_busy s hb hquiet).trans (phaseStep_iperm hp)
    exact ⟨_, run_next 0 _ _ hstep, stepIperm_roundedTo (s := s.sequencerTook) htrv m, hquiet, _, _, _, _, _, rfl⟩
  | succ n ih =>
    obtain ⟨t, hrun, ht⟩ := ih (by omega)
    have hstep := ht.step_eq (i := ⟨n, by omega⟩) hs
    exact ⟨_, (run_add (n + 1) 1 _ _ hrun).trans (run_next 0 _ _ hstep), ht.next (i := ⟨n, by omega⟩) hsk⟩

/-- `t` is the end of the block command in progress in `s`, in direction `m`: DOUT and TR are the BlockResult of `DIN`
under `KEY`, SK is the schedule of `KEY`, and the rest differs from `s` in the working registers, SEQ, the flags and the
host side only. -/
def State.BlockEnded (s : State) (m : Mode) (t : State) : Prop :=
  ∃ l r c d e, t = { s.endCommand with
    l, r, c, d, sk := keySchedule s.key, skv := true, trv := 0xFFFF#16
    dout := (cipherBlock m s.din s.key).output, tr := (cipherBlock m s.din s.key).trace, env := e }

/-- The eighteen steps of a block command whose schedule is current. -/
theorem run_block (hs : s.BlockStarted m) (hp : s.phase = .iperm) (hskv : s.skv = true) (hsk : s.subkeysCurrent) :
    s.busyFor 18 ∧ ∃ t, core.run 18 s = .next t ∧ s.BlockEnded m t := by
  have ⟨hb, _, _, _⟩ := hs
  refine ⟨busyFor_succ hb fun n hn => ?busy, ?ends⟩
  case busy =>
    obtain ⟨u, hrun, hu⟩ := run_rounds hs hp hsk (n := n) (by omega)
    exact ⟨u, hrun, hu.busy_eq.trans hb, hu.dout_eq⟩
  case ends =>
    obtain ⟨u, hrun, hu⟩ := run_rounds hs hp hsk (Nat.le_refl 16)
    have hlast := (run_add 17 1 _ _ hrun).trans (run_next 0 _ _ (hu.step_last hb))
    obtain ⟨_, _, hframe⟩ := hu
    refine ⟨_, hlast, u.l, u.r, u.c, u.d, u.sequencerTook.env, ?_⟩
    obtain ⟨l, r, trv, tr, e, rfl⟩ := hframe
    rw [← hsk, ← hskv]
    rfl

/-- A block command takes 18 steps when the schedule is current, and 17 more when it has to be derived first (R226,
R227). -/
theorem run_blockCommand (hs : s.BlockStarted m) (hp : s.phase = if s.skv then .iperm else .ksPc1)
    (hsk : s.skv = true → s.subkeysCurrent) :
    s.busyFor (if s.skv then 18 else 35) ∧
      ∃ t, core.run (if s.skv then 18 else 35) s = .next t ∧ s.BlockEnded m t := by
  cases hskv : s.skv with
  | true => exact run_block hs (by simpa [hskv] using hp) hskv (hsk hskv)
  | false =>
    obtain ⟨hbusy, u, hrun, hquiet, hframe⟩ := run_schedule hs (by simpa [hskv] using hp)
    have hstarted : u.BlockStarted m ∧ u.phase = .iperm ∧ u.skv = true ∧ u.subkeysCurrent ∧ u.dout = s.dout := by
      obtain ⟨c, d, e, rfl⟩ := hframe
      obtain ⟨hb, ho, htrv, _⟩ := hs
      exact ⟨⟨hb, ho, htrv, hquiet⟩, rfl, rfl, rfl, rfl⟩
    obtain ⟨hu, hphase, hvalid, hcurrent, hdout⟩ := hstarted
    obtain ⟨hbusy', t, hrun', l, r, c', d', e', rfl⟩ := run_block hu hphase hvalid hcurrent
    refine ⟨busyFor_add hbusy hrun hdout hbusy', _, (run_add 17 18 _ _ hrun).trans hrun', l, r, c', d', e', ?_⟩
    obtain ⟨c, d, e, rfl⟩ := hframe
    rfl

/-- What R226 and R227 say holds of a command that is gated and accepted as a block command in direction `m`. -/
theorem blockCommandRuns_cipherBlock {i : Instr} {o : Op}
    (hexec : ∀ s, exec i s = .next (s.gateWrite (State.acceptBlock o m))) (ho : blockMode o = some m) :
    blockCommandRuns i o m (cipherBlock m) := by
  intro s hs hquiet hsk
  have hready : exec i s = .next (s.acceptBlock o m) := (hexec s).trans (congrArg _ (gateWrite_of_ready hs _))
  refine ⟨fun hk => ?noKey, fun hk hd => ?noData, fun hk hd => ?accepted⟩
  case noKey => rw [hready, acceptBlock_noKey o hk]
  case noData => rw [hready, acceptBlock_noData o hk hd]
  case accepted =>
    rw [acceptBlock_accepts o hk hd] at hready
    obtain ⟨hbusy, _, hrun, l, r, c, d, e, rfl⟩ :=
      run_blockCommand (s := s.acceptedBlock o m) (m := m) ⟨rfl, ho, rfl, hquiet⟩ rfl hsk
    obtain ⟨_, hfault⟩ := hs
    refine ⟨_, hready, rfl, rfl, rfl, rfl, rfl, fun j => Vector.getElem_replicate j.isLt, rfl, rfl, hbusy, _, hrun, ?_⟩
    exact ⟨rfl, rfl, rfl, rfl, rfl, rfl, rfl, hfault, rfl, rfl, rfl, rfl, rfl, rfl, hk, rfl, hd, rfl⟩

end Sys2Proof.Machine
end

section
/-! CERTIFICATE. The statements about the block_cipher_orchestrator (43_block_cipher.md). -/

open Sys2Proof Sys2Proof.Machine

/-- Settles O40: each table is the inverse of the other, so the permutations undo each other position by position. -/
theorem ipAndFpAreMutualInverses : Obligations.IpAndFpAreMutualInverses :=
  ⟨fpTable_ipTable, ipTable_fpTable, permute_permute_of_inverse ipTable_fpTable,
    permute_permute_of_inverse fpTable_ipTable⟩

/-- Settles O41: in IPERM the sequencer's step is that of IP. -/
theorem ipermStep : Obligations.IpermStep := fun _ hp => phaseStep_iperm hp

/-- Settles O42: the subkey is chosen by OP, the end of the step by RND, and TRV gains one bit. -/
theorem roundStep : Obligations.RoundStep := by
  intro s i hp hr ho
  have hrnd : s.rnd.toNat = i.val + 1 := hr ▸ Nat.mod_eq_of_lt (by omega)
  obtain ⟨m, hm⟩ := blockMode_of_isBlock ho
  rw [← getElem_subkeySlot hm]
  refine ⟨(s.runRound m i).setSeq (phaseAfterRounds (i.val + 1)) (rndAfterRounds (i.val + 1)), ?step, rfl,
    trvBit_runRound m s i⟩
  case step => rw [phaseStep_round hp hrnd hm, stepRound_eq]

/-- Settles O43: in FPERM the sequencer's step is that of FP. -/
theorem fpermStep : Obligations.FpermStep := fun _ hp => phaseStep_fperm hp

/-- Settles O45: ENC is accepted as a block command, whose steps are those of EncryptBlock. -/
theorem encRunsToTheBlockResult : Obligations.EncRunsToTheBlockResult :=
  blockCommandRuns_cipherBlock (fun _ => rfl) rfl

/-- Settles O46: DEC is accepted as a block command, whose steps are those of DecryptBlock. -/
theorem decRunsToTheBlockResult : Obligations.DecRunsToTheBlockResult :=
  blockCommandRuns_cipherBlock (fun _ => rfl) rfl

end

section
/-! SUPPORT. The system commands (44_system_commands.md). -/

namespace Sys2Proof.Machine

/-- NOP is the gate of every host write with nothing behind it (44_system_commands.md R240). -/
theorem exec_nop (s : State) : exec .nop s = .next (s.gateWrite fun s => s) := rfl

end Sys2Proof.Machine
end

section
/-! CERTIFICATE. The statement about the system commands (44_system_commands.md). -/

open Sys2Proof Sys2Proof.Machine

/-- Settles O26: behind the gate of a host write NOP does nothing, so the three cases are those of the gate alone. -/
theorem nopDoesNothing : Obligations.NopDoesNothing := by
  refine fun s => ⟨fun hready => ?ready, fun hfault => ?faulted, fun hfault hbusy => ?busy, hostWrite_cmd_of_ok rfl s⟩
  case ready => rw [exec_nop, gateWrite_of_ready hready]
  case faulted => rw [exec_nop, gateWrite_faulted _ s hfault]
  case busy => rw [exec_nop, gateWrite_busy _ s hbusy hfault]

end

section
/-! SUPPORT. A faulted CORE (60_exceptions.md R261): what a host action and a step leave of it. With it, ENC and DEC past
the gate when CORE is ready (R255, R256). -/

namespace Sys2Proof.Machine

variable {s : State}

theorem exec_enc_ready (hs : s.ready) : exec .enc s = .next (s.acceptBlock .enc .enc) :=
  congrArg _ (gateWrite_of_ready hs _)

theorem exec_dec_ready (hs : s.ready) : exec .dec s = .next (s.acceptBlock .dec .dec) :=
  congrArg _ (gateWrite_of_ready hs _)

/-- A faulted CORE ignores every host write but SRST, whatever the index and the value. -/
theorem hostWrite_faulted (hf : s.fault = true) {a : Index} {v : Word64} (h : ¬(a = 0x000#12 ∧ v = 0xFF#64)) :
    hostWrite a v s = .next s := by
  obtain ⟨body, hgate⟩ := hostWrite_gated h s
  rw [hgate, gateWrite_faulted body s hf]

/-- A poll, again to come or not, writes the host side only. -/
theorem pollStatus_eq (s : State) : ∃ e, s.pollStatus = { s with env := e } := by
  unfold State.pollStatus
  split
  · exact ⟨_, rfl⟩
  · exact ⟨_, rfl⟩

/-- Of the host's actions only a reset changes a faulted CORE. -/
theorem hostAct_faulted (hf : s.fault = true) {a : HostAction} (ha : ¬a.resets) :
    ∃ e, hostAct a s = .next { s with env := e } := by
  cases a with
  | write i v => exact ⟨s.env, hostWrite_faulted hf ha⟩
  | read i => exact ⟨_, rfl⟩
  | reset => exact absurd trivial ha
  | wait =>
    obtain ⟨e, he⟩ := pollStatus_eq s
    exact ⟨e, congrArg _ he⟩

/-- With no command in progress and no host action to come, CORE waits (70_reset_and_hazards.md R292). -/
theorem step_of_waiting (hb : s.busy = false) (he : s.env.script = []) : step s = .next s := by
  simp [step, oneAction, State.sequencerMoves, hb, he]

/-- With no command in progress the host moves (10_state.md R31). -/
theorem step_of_not_busy (hb : s.busy = false) {a : HostAction} {rest : List HostAction}
    (he : s.env.script = a :: rest) : step s = hostAct a (s.hostTook rest) := by
  simp [step, oneAction, State.sequencerMoves, hb, he]

/-- A faulted CORE without a command in progress stays as it is in every step that is no reset. -/
theorem step_faulted (hf : s.fault = true) (hb : s.busy = false)
    (hnext : ∀ a, s.env.script.head? = some a → ¬a.resets) : ∃ e, step s = .next { s with env := e } := by
  cases he : s.env.script with
  | nil => exact ⟨s.env, step_of_waiting hb he⟩
  | cons a rest =>
    have ha : ¬a.resets := hnext a (by rw [he, List.head?_cons])
    obtain ⟨e, hact⟩ := hostAct_faulted (s := s.hostTook rest) (by rw [State.hostTook_fault, hf]) ha
    obtain ⟨e', htook⟩ := hostTook_eq rest s
    refine ⟨e, ?_⟩
    rw [step_of_not_busy hb he, hact, htook]

end Sys2Proof.Machine
end

section
/-! CERTIFICATE. The statements about the faults (60_exceptions.md). -/

open Sys2Proof Sys2Proof.Machine

/-- Settles O15: fault entry is this one update of the state. -/
theorem faultEntryWrites : Obligations.FaultEntryWrites := fun _ _ => rfl

/-- Settles O16: every write but SRST stands behind the gate, which answers a busy CORE with the fault entry. -/
theorem writeWhileBusyAbandons : Obligations.WriteWhileBusyAbandons := by
  intro a v s hbusy hfault hsrst
  obtain ⟨body, hgate⟩ := hostWrite_gated hsrst s
  rw [hgate, gateWrite_busy body s hbusy hfault]
  exact congrArg _ (faultEntryWrites .busyAccess s)

/-- Settles O17: the gate ignores the write; in a legal state a fault leaves BUSY = 0, so the sequencer does not move and
the host's action is the whole step. -/
theorem faultedStateIsFrozen : Obligations.FaultedStateIsFrozen :=
  ⟨fun _ _ _ hfault hsrst => hostWrite_faulted hfault hsrst,
    fun _ hlegal hfault hnext => step_faulted hfault (hlegal.flags.fault_busy hfault) hnext⟩

/-- Settles O18: past the gate each command checks KEYW first, and a block command then DINW. -/
theorem missingInputsFault : Obligations.MissingInputsFault := by
  refine fun s hs => ⟨fun hk => ⟨?keysched, ?encKey, ?decKey⟩, fun hk hd => ⟨?encData, ?decData⟩⟩
  case keysched => rw [exec_keysched_ready hs, hk, if_neg Bool.false_ne_true]
  case encKey => rw [exec_enc_ready hs, acceptBlock_noKey .enc hk]
  case decKey => rw [exec_dec_ready hs, acceptBlock_noKey .dec hk]
  case encData => rw [exec_enc_ready hs, acceptBlock_noData .enc hk hd]
  case decData => rw [exec_dec_ready hs, acceptBlock_noData .dec hk hd]

end

section
/-! SUPPORT. The values that a reset leaves in the state (10_state.md R41). -/

namespace Sys2Proof.Machine

theorem reset_status : State.reset.status = 0x0000#16 := by decide

theorem reset_seq : State.reset.seq = 0x0000#16 := by decide

/-- Whatever the state before, a reset leaves the values of the reset table (10_state.md R41). -/
theorem toReset_hasResetValues (s : State) : s.toReset.HasResetValues where
  key := rfl
  din := rfl
  dout := rfl
  halves := ⟨rfl, rfl⟩
  keyHalves := ⟨rfl, rfl⟩
  subkeys i := Vector.getElem_replicate i.isLt
  status := ⟨rfl, rfl, rfl, rfl, rfl, rfl, rfl, rfl, reset_status⟩
  seq := ⟨rfl, rfl, rfl, reset_seq⟩
  trv := rfl
  tbuf a _ := memGet_nil a
  records i := by
    have hzero : s.toReset.tr[i] = TraceRecord.zero := Vector.getElem_replicate i.isLt
    rw [hzero]
    exact ⟨rfl, rfl, rfl, rfl, rfl, rfl, fun b => Vector.getElem_replicate b.isLt, rfl, rfl, rfl⟩

end Sys2Proof.Machine
end

section
/-! CERTIFICATE. The statements about reset and hazards (70_reset_and_hazards.md). -/

open Sys2Proof Sys2Proof.Machine

/-- Settles O8: HostReset and SRST both answer `toReset` of the state. -/
theorem hostResetAndSoftResetAgree : Obligations.HostResetAndSoftResetAgree :=
  fun s => ⟨s.toReset, rfl, rfl, toReset_hasResetValues s⟩

end

section
/-! SUPPORT. The encoder's values decode (30_encoding.md section 3): the converse of `eq_encode_of_decode`. -/

namespace Sys2Proof

/-- The value of a well-formed command decodes to it: no high bit is set, and the low byte is its byte. -/
theorem decode_encode {i : Instr} (h : i.wellFormed = true) : decode (encode i) = .ok i := by
  have hhigh : (encode i).extractLsb' 8 56 = 0#56 := Machine.extract_append_high 0#56 (encodeByte i)
  have hlow : (encode i).extractLsb' 0 8 = encodeByte i := Machine.extract_append_low 0#56 (encodeByte i)
  rw [decode_of_high_zero hhigh, hlow]
  exact decodeByte_encodeByte i (mem_legalCommands h)

end Sys2Proof
end

section
/-! CERTIFICATE. Decode and encode agree (30_encoding.md section 3). -/

open Sys2Proof Sys2Proof.Machine

/-- Settles O3: a value that decodes is the encoding of its command, and the encoding of a well-formed command decodes
to it. -/
theorem decodeIsTheInverseOfEncode : Obligations.DecodeIsTheInverseOfEncode :=
  fun _ _ => ⟨eq_encode_of_decode, fun ⟨hw, hv⟩ => hv ▸ decode_encode hw⟩

/-- Settles O1: each of the fifteen values is the encoding of its command. -/
theorem fifteenLegalBytesDecode : Obligations.FifteenLegalBytesDecode :=
  ⟨decode_encode (i := .nop) rfl, decode_encode (i := .keysched) rfl, decode_encode (i := .enc) rfl,
    decode_encode (i := .dec) rfl, decode_encode (i := .ldhex .key) rfl, decode_encode (i := .ldhex .din) rfl,
    decode_encode (i := .ldbin .key) rfl, decode_encode (i := .ldbin .din) rfl, decode_encode (i := .sthex .key) rfl,
    decode_encode (i := .sthex .din) rfl, decode_encode (i := .sthex .dout) rfl, decode_encode (i := .stbin .key) rfl,
    decode_encode (i := .stbin .din) rfl, decode_encode (i := .stbin .dout) rfl, decode_encode (i := .srst) rfl⟩

end

section
/-! SUPPORT. The text buffer under a step (log entry 8), and the rule by which every invariant is carried over a step:
it is enough that the host's effects keep it, and the sequencer's steps while BUSY = 1. -/

namespace Sys2Proof.Machine

variable {s t : State}

/-- What every host effect and every sequencer step of a busy CORE keeps, every step keeps (20_memory.md R70). -/
theorem step_keeps {P : State → Prop} (hhost : ∀ {s t}, P s → HostEffect s t → P t)
    (hseq : ∀ {s t}, P s → s.busy = true → phaseStep s = .next t → P t) (h : P s) (hst : step s = .next t) : P t := by
  rcases step_cases hst with ⟨hbusy, hmoved⟩ | ⟨e, heff⟩ | ⟨_, _, rfl⟩
  · exact hseq (hhost h (.hostSide s.sequencerTook.env)) hbusy hmoved
  · exact hhost (hhost h (.hostSide e)) heff
  · exact h

/-- The host writes texts and words inside the buffer only. -/
theorem hostEffect_keeps_tbuf_wf (h : s.tbuf.wf) (hst : HostEffect s t) : t.tbuf.wf := by
  cases hst with
  | same | hostSide | raise | key | din | keysched | block => exact h
  | reset => exact reset_tbuf_wf
  | text u _ _ hlen => exact memPut_wf s.tbuf 0 u h (by simpa using hlen)
  | tbufWord w v => exact memWrite_wf s.tbuf (8 * w) 8 v h (by simp only [tbufBytes]; omega)

/-- The sequencer never writes TBUF. -/
theorem phaseStep_keeps_tbuf_wf (h : s.tbuf.wf) (hst : phaseStep s = .next t) : t.tbuf.wf := by
  obtain ⟨_, htbuf, _⟩ := phaseStep_frame hst
  rwa [htbuf]

end Sys2Proof.Machine
end

section
/-! CERTIFICATE. The text buffer's invariant (10_state.md section 6; log entry 8). -/

open Sys2Proof Sys2Proof.Machine

/-- Settles O50: the host's writes stay inside the buffer, and the sequencer makes none. -/
theorem stepKeepsMemoryCanonical : Obligations.StepKeepsMemoryCanonical := fun _ _ =>
  step_keeps (P := fun s => s.tbuf.wf) hostEffect_keeps_tbuf_wf fun h _ => phaseStep_keeps_tbuf_wf h

end

section
/-! SUPPORT. The invariant of the control state (10_state.md sections 4 and 5): what it says phase by phase, and that
the host's effects and the sequencer's steps keep it. -/

namespace Sys2Proof.Machine

variable {s t : State}

/-! ### SEQ and SKV, phase by phase -/

theorem seqLegal_idle (hp : s.phase = .idle) : s.seqLegal ↔ s.busy = false ∧ s.rnd = 0#5 ∧ s.op = .none := by
  rw [State.seqLegal, hp]

theorem seqLegal_ksPc1 (hp : s.phase = .ksPc1) : s.seqLegal ↔ s.busy = true ∧ s.rnd = 0#5 ∧ s.op ≠ .none := by
  rw [State.seqLegal, hp]

theorem seqLegal_ksRot (hp : s.phase = .ksRot) :
    s.seqLegal ↔ s.busy = true ∧ (1 ≤ s.rnd.toNat ∧ s.rnd.toNat ≤ 16) ∧ s.op ≠ .none := by
  rw [State.seqLegal, hp]

theorem seqLegal_iperm (hp : s.phase = .iperm) : s.seqLegal ↔ s.busy = true ∧ s.rnd = 0#5 ∧ s.op.isBlock := by
  rw [State.seqLegal, hp]

theorem seqLegal_round (hp : s.phase = .round) :
    s.seqLegal ↔ s.busy = true ∧ (1 ≤ s.rnd.toNat ∧ s.rnd.toNat ≤ 16) ∧ s.op.isBlock := by
  rw [State.seqLegal, hp]

theorem seqLegal_fperm (hp : s.phase = .fperm) : s.seqLegal ↔ s.busy = true ∧ s.rnd = 0#5 ∧ s.op.isBlock := by
  rw [State.seqLegal, hp]

/-- `PHASE = IDLE` exactly when `BUSY = 0` (10_state.md R30). -/
theorem idle_iff_not_busy (h : s.seqLegal) : s.phase = .idle ↔ s.busy = false := by
  cases hp : s.phase with
  | idle => simp [(seqLegal_idle hp).mp h]
  | ksPc1 => simp [(seqLegal_ksPc1 hp).mp h]
  | ksRot => simp [(seqLegal_ksRot hp).mp h]
  | iperm => simp [(seqLegal_iperm hp).mp h]
  | round => simp [(seqLegal_round hp).mp h]
  | fperm => simp [(seqLegal_fperm hp).mp h]

/-- `SKV = 0` while the schedule is being derived. -/
theorem skv_of_deriving (h : s.skvLegal) (hp : s.phase = .ksPc1 ∨ s.phase = .ksRot) : s.skv = false := by
  rcases hp with hp | hp <;> simpa only [State.skvLegal, hp] using h

/-- `SKV = 1` in the block phases. -/
theorem skv_of_block (h : s.skvLegal) (hp : s.phase = .iperm ∨ s.phase = .round) : s.skv = true := by
  rcases hp with hp | hp <;> simpa only [State.skvLegal, hp] using h

/-- The direction of a block command's OP. -/
theorem isBlock_of_blockMode {o : Op} {m : Mode} (h : blockMode o = some m) : o.isBlock := by
  cases o with
  | none | keysched => cases h
  | enc => exact .inl rfl
  | dec => exact .inr rfl

/-- A command in progress that is not KEYSCHED is a block command. -/
theorem isBlock_of_ne {o : Op} (hn : o ≠ .none) (hk : o ≠ .keysched) : o.isBlock := by
  cases o with
  | none => exact absurd rfl hn
  | keysched => exact absurd rfl hk
  | enc => exact .inl rfl
  | dec => exact .inr rfl

/-! ### The flags -/

/-- The flags' agreement does not depend on the rest of the state, and SKV may change when KEYW = 1. -/
theorem flagsLegal_of_same_flags (h : s.FlagsLegal) (hskv : t.skv = true → s.keyw = true)
    (hsame : (t.cause, t.fault, t.busy, t.done, t.keyw, t.dinw, t.op, t.mode) =
      (s.cause, s.fault, s.busy, s.done, s.keyw, s.dinw, s.op, s.mode)) : t.FlagsLegal := by
  simp only [Prod.mk.injEq] at hsame
  obtain ⟨hcause, hfault, hbusy, hdone, hkeyw, hdinw, hop, hmode⟩ := hsame
  constructor <;> simp only [hcause, hfault, hbusy, hdone, hkeyw, hdinw, hop, hmode]
  exacts [h.cause_none, h.cause_internal, h.fault_busy, h.fault_done, h.busy_done, h.busy_keyw, hskv, h.block_dinw,
    h.enc_mode, h.dec_mode]

/-- Fault entry (60_exceptions.md R262) with a cause that a transition may raise. -/
theorem flagsLegal_raiseFault {k : Cause} (h : s.FlagsLegal) (hk : k ≠ .none) (hi : k ≠ .internal) :
    (s.raiseFault k).FlagsLegal where
  cause_none := by simp [hk]
  cause_internal := hi
  fault_busy _ := rfl
  fault_done _ := rfl
  busy_done _ := rfl
  busy_keyw := nofun
  skv_keyw := h.skv_keyw
  block_dinw := nofun
  enc_mode := nofun
  dec_mode := nofun

/-- The end of a command: a busy CORE has no fault recorded, so DONE may be set. -/
theorem flagsLegal_endCommand (h : s.FlagsLegal) (hb : s.busy = true) : s.endCommand.FlagsLegal where
  cause_none := h.cause_none
  cause_internal := h.cause_internal
  fault_busy _ := rfl
  fault_done hf := absurd (hb.symm.trans (h.fault_busy hf)) (by decide)
  busy_done := nofun
  busy_keyw := nofun
  skv_keyw := h.skv_keyw
  block_dinw := nofun
  enc_mode := nofun
  dec_mode := nofun

/-- The acceptance of KEYSCHED: KEYW has been checked. -/
theorem flagsLegal_acceptKeysched (h : s.FlagsLegal) (hf : s.fault = false) (hk : s.keyw = true) :
    s.acceptKeysched.FlagsLegal where
  cause_none := h.cause_none
  cause_internal := h.cause_internal
  fault_busy hfault := absurd (hf.symm.trans hfault) (by decide)
  fault_done _ := rfl
  busy_done _ := rfl
  busy_keyw _ := hk
  skv_keyw := nofun
  block_dinw := nofun
  enc_mode := nofun
  dec_mode := nofun

/-- The acceptance of a block command: KEYW and DINW have been checked, and MODE is set. -/
theorem flagsLegal_acceptedBlock {o : Op} {m : Mode} (h : s.FlagsLegal) (ho : blockMode o = some m)
    (hf : s.fault = false) (hk : s.keyw = true) (hd : s.dinw = true) : (s.acceptedBlock o m).FlagsLegal where
  cause_none := h.cause_none
  cause_internal := h.cause_internal
  fault_busy hfault := absurd (hf.symm.trans hfault) (by decide)
  fault_done _ := rfl
  busy_done _ := rfl
  busy_keyw _ := hk
  skv_keyw := h.skv_keyw
  block_dinw _ := hd
  enc_mode he := by cases he; exact (Option.some.inj ho).symm
  dec_mode he := by cases he; exact (Option.some.inj ho).symm

/-- A write of KEY sets KEYW and clears SKV. -/
theorem flagsLegal_writeKey (h : s.FlagsLegal) (v : Word64) : (s.writeKey v).FlagsLegal :=
  { h with busy_keyw := fun _ => rfl, skv_keyw := nofun }

/-- A write of DIN sets DINW. -/
theorem flagsLegal_writeDin (h : s.FlagsLegal) (v : Word64) : (s.writeDin v).FlagsLegal :=
  { h with block_dinw := fun _ => rfl }

theorem flagsLegal_reset : State.reset.FlagsLegal := by constructor <;> decide

theorem flagsLegal_toReset (s : State) : s.toReset.FlagsLegal := flagsLegal_of_same_flags flagsLegal_reset nofun rfl

/-! ### What keeps the control state legal -/

theorem controlLegal_toReset (s : State) : s.toReset.ControlLegal :=
  ⟨⟨rfl, rfl, rfl⟩, flagsLegal_toReset s, trivial⟩

theorem hostEffect_keeps_controlLegal (h : s.ControlLegal) (hst : HostEffect s t) : t.ControlLegal := by
  obtain ⟨hseq, hflags, hskv⟩ := h
  cases hst with
  | same => exact ⟨hseq, hflags, hskv⟩
  | hostSide | text | tbufWord => exact ⟨hseq, flagsLegal_of_same_flags hflags hflags.skv_keyw rfl, hskv⟩
  | raise k _ hk hi => exact ⟨⟨rfl, rfl, rfl⟩, flagsLegal_raiseFault hflags hk hi, trivial⟩
  | reset => exact controlLegal_toReset s
  | key v hb =>
    have hidle : (s.writeKey v).phase = .idle := (idle_iff_not_busy hseq).mpr hb
    exact ⟨hseq, flagsLegal_writeKey hflags v, by simp only [State.skvLegal, hidle]⟩
  | din v => exact ⟨hseq, flagsLegal_writeDin hflags v, hskv⟩
  | keysched _ hf hk => exact ⟨⟨rfl, rfl, nofun⟩, flagsLegal_acceptKeysched hflags hf hk, rfl⟩
  | block o m ho _ hf hk hd =>
    have hblock := isBlock_of_blockMode ho
    refine ⟨?seq, flagsLegal_acceptedBlock hflags ho hf hk hd, ?skv⟩
    case seq =>
      cases s.skv with
      | true => exact ⟨rfl, rfl, hblock⟩
      | false => exact ⟨rfl, rfl, by rintro rfl; cases ho⟩
    case skv =>
      cases hs : s.skv with
      | true => exact hs
      | false => exact hs

/-- KS_ROT goes on with `RND` still in range, ends KEYSCHED, or goes on to the block with the schedule valid. -/
theorem stepKsRot_keeps_controlLegal {i : Fin 16} (h : s.ControlLegal) (hp : s.phase = .ksRot) :
    (s.stepKsRot i).ControlLegal := by
  obtain ⟨hseq, hflags, hskv⟩ := h
  obtain ⟨hb, _, hop⟩ := (seqLegal_ksRot hp).mp hseq
  have hunset : s.skv = false := skv_of_deriving hskv (.inr hp)
  by_cases hi : i.val < 15
  · rw [stepKsRot_between s i hi]
    exact ⟨⟨hb, by simp; omega, hop⟩, flagsLegal_of_same_flags hflags hflags.skv_keyw rfl, hunset⟩
  · by_cases ho : s.op = .keysched
    · rw [stepKsRot_ends s i hi ho]
      exact ⟨⟨rfl, rfl, rfl⟩, flagsLegal_of_same_flags (flagsLegal_endCommand hflags hb) (fun _ => hflags.busy_keyw hb)
        rfl, trivial⟩
    · rw [stepKsRot_goes_on s i hi ho]
      exact ⟨⟨hb, rfl, isBlock_of_ne hop ho⟩, flagsLegal_of_same_flags hflags (fun _ => hflags.busy_keyw hb) rfl, rfl⟩

/-- ROUND goes on with `RND` still in range, or to FPERM. -/
theorem stepRound_keeps_controlLegal {i : Fin 16} (h : s.ControlLegal) (hp : s.phase = .round) (m : Mode) :
    (s.stepRound m i).ControlLegal := by
  obtain ⟨hseq, hflags, hskv⟩ := h
  obtain ⟨hb, _, hop⟩ := (seqLegal_round hp).mp hseq
  have hset : s.skv = true := skv_of_block hskv (.inr hp)
  by_cases hi : i.val < 15
  · rw [stepRound_between m s i hi]
    exact ⟨⟨hb, by simp; omega, hop⟩, flagsLegal_of_same_flags hflags hflags.skv_keyw rfl, hset⟩
  · rw [stepRound_ends m s i hi]
    exact ⟨⟨hb, rfl, hop⟩, flagsLegal_of_same_flags hflags hflags.skv_keyw rfl, hset⟩

theorem phaseStep_keeps_controlLegal (h : s.ControlLegal) (hst : phaseStep s = .next t) : t.ControlLegal := by
  have ⟨hseq, hflags, hskv⟩ := h
  rcases phaseStep_cases hst with ⟨hp, rfl⟩ | ⟨i, hp, _, rfl⟩ | ⟨hp, rfl⟩ | ⟨i, m, hp, _, _, rfl⟩ | ⟨hp, rfl⟩
  · obtain ⟨hb, _, hop⟩ := (seqLegal_ksPc1 hp).mp hseq
    have hunset : s.skv = false := skv_of_deriving hskv (.inl hp)
    exact ⟨⟨hb, by simp, hop⟩, flagsLegal_of_same_flags hflags hflags.skv_keyw rfl, hunset⟩
  · exact stepKsRot_keeps_controlLegal h hp
  · obtain ⟨hb, _, hop⟩ := (seqLegal_iperm hp).mp hseq
    have hset : s.skv = true := skv_of_block hskv (.inl hp)
    exact ⟨⟨hb, by simp, hop⟩, flagsLegal_of_same_flags hflags hflags.skv_keyw rfl, hset⟩
  · exact stepRound_keeps_controlLegal h hp m
  · obtain ⟨hb, _, _⟩ := (seqLegal_fperm hp).mp hseq
    exact ⟨⟨rfl, rfl, rfl⟩, flagsLegal_of_same_flags (flagsLegal_endCommand hflags hb) hflags.skv_keyw rfl, trivial⟩

theorem step_keeps_controlLegal (h : s.ControlLegal) (hst : step s = .next t) : t.ControlLegal :=
  step_keeps hostEffect_keeps_controlLegal (fun h _ => phaseStep_keeps_controlLegal h) h hst

end Sys2Proof.Machine
end

section
/-! CERTIFICATE. The control state's invariant (10_state.md sections 4 and 5, 60_exceptions.md sections 1 and 4). -/

open Sys2Proof Sys2Proof.Machine

/-- Settles O49: every effect of the host and every phase's step keeps SEQ, the flags and SKV in agreement. -/
theorem stepKeepsControlLegal : Obligations.StepKeepsControlLegal := fun _ _ => step_keeps_controlLegal

end

section
/-! SUPPORT. The invariant of the trace memory (10_state.md R32, R39, 42_round_engine.md R197): what TRV has to be phase
by phase, and that the host's effects and the sequencer's steps keep the records. -/

namespace Sys2Proof.Machine

variable {s t : State}

/-! ### TRV against the phase -/

theorem trvLegal_idle (hp : s.phase = .idle) : s.trvLegal := by
  rw [State.trvLegal, hp]
  trivial

theorem trvLegal_deriving (hp : s.phase = .ksPc1 ∨ s.phase = .ksRot) :
    s.trvLegal ↔ (s.op ≠ .keysched → s.trv = 0x0000#16) := by
  rcases hp with hp | hp <;> rw [State.trvLegal, hp]

theorem trvLegal_iperm (hp : s.phase = .iperm) : s.trvLegal ↔ s.trv = 0x0000#16 := by rw [State.trvLegal, hp]

theorem trvLegal_round (hp : s.phase = .round) :
    s.trvLegal ↔ ∀ i : Fin 16, s.trvBit i = true ↔ i.val + 1 < s.rnd.toNat := by rw [State.trvLegal, hp]

theorem trvLegal_fperm (hp : s.phase = .fperm) : s.trvLegal ↔ s.trv = 0xFFFF#16 := by rw [State.trvLegal, hp]

/-- No bit of a zero TRV is set. -/
theorem trvBit_of_zero (h : s.trv = 0x0000#16) (i : Fin 16) : s.trvBit i = false := by simp [State.trvBit, h]

/-- TRV is `0xFFFF` when each of its bits is set. -/
theorem trv_eq_ones (h : ∀ i : Fin 16, s.trvBit i = true) : s.trv = 0xFFFF#16 := by
  have hones : ∀ i : Fin 16, (0xFFFF#16).getLsbD i.val = true := by decide
  exact BitVec.eq_of_getLsbD_eq fun i hi => (h ⟨i, hi⟩).trans (hones ⟨i, hi⟩).symm

/-! ### The records -/

/-- With no bit of TRV set, every record has to be zero. -/
theorem recordsLegal_of_cleared (htrv : s.trv = 0x0000#16) (htr : s.tr = Vector.replicate 16 TraceRecord.zero) :
    s.recordsLegal := by
  intro i
  have hbit := trvBit_of_zero htrv i
  refine ⟨fun _ => ?_, fun hset => absurd (hbit.symm.trans hset) (by decide)⟩
  rw [htr]
  exact Vector.getElem_replicate i.isLt

/-- The round writes its own record and sets its own bit of TRV (43_block_cipher.md R229). -/
theorem runRound_keeps_recordsLegal (h : s.recordsLegal) (m : Mode) (i : Fin 16) : (s.runRound m i).recordsLegal := by
  intro j
  rw [trvBit_runRound, State.runRound_tr, Fin.getElem_fin]
  by_cases hji : j = i
  · subst hji
    simp only [if_true, Vector.getElem_set_self]
    exact ⟨nofun, fun _ => rfl⟩
  · have hne : i.val ≠ j.val := fun e => hji (Fin.ext e.symm)
    rw [if_neg hji, Vector.getElem_set_ne _ _ hne]
    exact h j

/-! ### What keeps the trace memory legal -/

theorem traceLegal_of_cleared (htrv : s.trv = 0x0000#16) (htr : s.tr = Vector.replicate 16 TraceRecord.zero)
    (hp : s.phase = .idle ∨ s.phase = .ksPc1 ∨ s.phase = .iperm) : s.TraceLegal := by
  refine ⟨recordsLegal_of_cleared htrv htr, ?_⟩
  rcases hp with hp | hp | hp
  · exact trvLegal_idle hp
  · exact (trvLegal_deriving (.inl hp)).mpr fun _ => htrv
  · exact (trvLegal_iperm hp).mpr htrv

theorem traceLegal_toReset (s : State) : s.toReset.TraceLegal := traceLegal_of_cleared rfl rfl (.inl rfl)

theorem hostEffect_keeps_traceLegal (h : s.TraceLegal) (hst : HostEffect s t) : t.TraceLegal := by
  have ⟨hrecords, hmask⟩ := h
  cases hst with
  | same | hostSide | text | tbufWord | key | din => exact ⟨hrecords, hmask⟩
  | raise => exact ⟨hrecords, trivial⟩
  | reset => exact traceLegal_toReset s
  | keysched => exact ⟨hrecords, absurd rfl⟩
  | block => exact traceLegal_of_cleared rfl rfl (by cases s.skv <;> simp)

/-- The rotations leave TRV and TR alone. -/
theorem stepKsRot_keeps_traceLegal {i : Fin 16} (h : s.TraceLegal) (hp : s.phase = .ksRot) :
    (s.stepKsRot i).TraceLegal := by
  obtain ⟨hrecords, hmask⟩ := h
  have hzero := (trvLegal_deriving (.inr hp)).mp hmask
  by_cases hi : i.val < 15
  · rw [stepKsRot_between s i hi]
    exact ⟨hrecords, hzero⟩
  · by_cases ho : s.op = .keysched
    · rw [stepKsRot_ends s i hi ho]
      exact ⟨hrecords, trivial⟩
    · rw [stepKsRot_goes_on s i hi ho]
      exact ⟨hrecords, hzero ho⟩

/-- After round `i + 1` TRV holds the rounds up to it, all sixteen after the last. -/
theorem stepRound_keeps_traceLegal {i : Fin 16} (h : s.TraceLegal) (hp : s.phase = .round)
    (hr : s.rnd.toNat = i.val + 1) (m : Mode) : (s.stepRound m i).TraceLegal := by
  obtain ⟨hrecords, hmask⟩ := h
  have hrun := runRound_keeps_recordsLegal hrecords m i
  have hbits (j : Fin 16) : (s.runRound m i).trvBit j = true ↔ j.val < i.val + 1 := by
    rw [trvBit_runRound]
    by_cases hji : j = i
    · simp [hji]
    · rw [if_neg hji, (trvLegal_round hp).mp hmask j]
      omega
  by_cases hi : i.val < 15
  · rw [stepRound_between m s i hi]
    have hrnd : (BitVec.ofNat 5 (i.val + 2)).toNat = i.val + 2 := Nat.mod_eq_of_lt (by omega)
    refine ⟨hrun, (trvLegal_round rfl).mpr fun j => (hbits j).trans ?_⟩
    rw [State.setSeq_rnd, hrnd]
    omega
  · rw [stepRound_ends m s i hi]
    exact ⟨hrun, trv_eq_ones fun j => (hbits j).mpr (by omega)⟩

theorem phaseStep_keeps_traceLegal (h : s.TraceLegal) (hst : phaseStep s = .next t) : t.TraceLegal := by
  have ⟨hrecords, hmask⟩ := h
  rcases phaseStep_cases hst with ⟨hp, rfl⟩ | ⟨i, hp, _, rfl⟩ | ⟨hp, rfl⟩ | ⟨i, m, hp, hr, _, rfl⟩ | ⟨_, rfl⟩
  · exact ⟨hrecords, (trvLegal_deriving (.inl hp)).mp hmask⟩
  · exact stepKsRot_keeps_traceLegal h hp
  · have hnone := trvBit_of_zero (s := s.stepIperm) ((trvLegal_iperm hp).mp hmask)
    refine ⟨hrecords, (trvLegal_round rfl).mpr fun i => ?_⟩
    simpa using hnone i
  · exact stepRound_keeps_traceLegal h hp hr m
  · exact ⟨hrecords, trivial⟩

theorem step_keeps_traceLegal (h : s.TraceLegal) (hst : step s = .next t) : t.TraceLegal :=
  step_keeps hostEffect_keeps_traceLegal (fun h _ => phaseStep_keeps_traceLegal h) h hst

end Sys2Proof.Machine
end

section
/-! CERTIFICATE. The trace memory's invariant (10_state.md section 6, 42_round_engine.md section 5). -/

open Sys2Proof Sys2Proof.Machine

/-- Settles O52: only a round, the acceptance of a block command and a reset write TR and TRV, and each keeps them in
agreement. -/
theorem stepKeepsTraceLegal : Obligations.StepKeepsTraceLegal := fun _ _ _ => step_keeps_traceLegal

end

section
/-! SUPPORT. The invariant of the work in progress (43_block_cipher.md R233, 41_key_schedule.md R156): for SK, C and D it
is `scheduleLegal`, for L, R and TR it is `roundsLegal`. -/

namespace Sys2Proof.Machine

variable {s t : State} {m : Mode}

/-- L and R are the halves after `n` rounds on `DIN` under `KEY`, and the first `n` records are in TR. -/
def State.roundsDone (s : State) (m : Mode) (n : Nat) : Prop :=
  (s.l, s.r) = s.blockHalves m n ∧ s.firstRecords m n

/-- One round more (R229): as `runRound_roundedTo`, whose mask of valid records plays no part in L, R and TR. -/
theorem runRound_roundsDone {i : Fin 16} (hsk : s.subkeysCurrent) (h : s.roundsDone m i.val) :
    (s.runRound m i).roundsDone m (i.val + 1) := by
  obtain ⟨hhalves, hrecords⟩ := h
  obtain ⟨hhalves', hrecords', _⟩ :=
    runRound_roundedTo (s := { s with trv := BitVec.ofFnLE fun j : Fin 16 => decide (j.val < i.val) }) (m := m) (i := i)
      hsk ⟨hhalves, hrecords, fun j => by simp [State.trvBit]⟩
  exact ⟨hhalves', hrecords'⟩

/-- The rounds' part of the invariant. -/
def State.roundsLegal (s : State) : Prop :=
  ∀ m, blockMode s.op = some m →
    (s.phase = .round → s.roundsDone m (s.rnd.toNat - 1)) ∧ (s.phase = .fperm → s.roundsDone m 16)

/-- In the other phases nothing is asked of L, R and TR. -/
theorem roundsLegal_of_phase (hr : s.phase ≠ .round) (hf : s.phase ≠ .fperm) : s.roundsLegal :=
  fun _ _ => ⟨(absurd · hr), (absurd · hf)⟩

/-- The invariant is the schedule's and the rounds' part together. -/
theorem workLegal_iff (hc : s.ControlLegal) : s.WorkLegal ↔ s.scheduleLegal ∧ s.roundsLegal := by
  have hbusy : s.phase ≠ .idle → s.busy = true := fun hp => by simpa [idle_iff_not_busy hc.seq] using hp
  have hrot (n : Nat) : ((s.c, s.d) = halvesAfter s.key (n - 1) ∧
      ∀ i : Fin 16, i.val + 1 < n → s.sk[i] = (keySchedule s.key)[i]) ↔ s.rotatedTo (n - 1) := by
    simp only [State.rotatedTo, Nat.lt_sub_iff_add_lt]
  constructor
  · rintro ⟨hsk, hrotating, hrounding, hfinishing⟩
    exact ⟨⟨hbusy, skv_of_deriving hc.skv, fun hp => (hrot _).mp (hrotating hp), hsk⟩,
      fun m ho => ⟨(hrounding m · ho), (hfinishing m · ho)⟩⟩
  · rintro ⟨⟨_, _, hrotating, hsk⟩, hrounds⟩
    exact ⟨hsk, fun hp => (hrot _).mpr (hrotating hp), fun m hp ho => (hrounds m ho).1 hp,
      fun m hp ho => (hrounds m ho).2 hp⟩

theorem hostEffect_keeps_roundsLegal (hc : s.ControlLegal) (h : s.roundsLegal) (hst : HostEffect s t) :
    t.roundsLegal := by
  have hidle (hb : s.busy = false) : s.phase = .idle := (idle_iff_not_busy hc.seq).mpr hb
  cases hst with
  | same | hostSide | text | tbufWord => exact h
  | raise | reset | keysched => exact roundsLegal_of_phase nofun nofun
  | key v hb => exact roundsLegal_of_phase (s := s.writeKey v) (by simp [hidle hb]) (by simp [hidle hb])
  | din v hb => exact roundsLegal_of_phase (s := s.writeDin v) (by simp [hidle hb]) (by simp [hidle hb])
  | block => cases hs : s.skv <;> exact roundsLegal_of_phase nofun nofun

/-- No round runs in KS_ROT, nor at its end. -/
theorem stepKsRot_roundsLegal (s : State) (i : Fin 16) : (s.stepKsRot i).roundsLegal := by
  by_cases hi : i.val < 15
  · rw [stepKsRot_between s i hi]
    exact roundsLegal_of_phase nofun nofun
  · by_cases ho : s.op = .keysched
    · rw [stepKsRot_ends s i hi ho]
      exact roundsLegal_of_phase nofun nofun
    · rw [stepKsRot_goes_on s i hi ho]
      exact roundsLegal_of_phase nofun nofun

/-- A round on the halves after `i` rounds gives those after `i + 1`. -/
theorem stepRound_roundsLegal {i : Fin 16} (ho : blockMode s.op = some m)
    (h : (s.runRound m i).roundsDone m (i.val + 1)) : (s.stepRound m i).roundsLegal := by
  by_cases hi : i.val < 15
  · rw [stepRound_between m s i hi]
    have hrnd : (BitVec.ofNat 5 (i.val + 2)).toNat - 1 = i.val + 1 := by simp; omega
    refine fun n hn => ⟨fun _ => ?_, nofun⟩
    obtain rfl : m = n := Option.some.inj (ho.symm.trans hn)
    exact hrnd ▸ h
  · rw [stepRound_ends m s i hi]
    have hlast : i.val + 1 = 16 := by omega
    refine fun n hn => ⟨nofun, fun _ => ?_⟩
    obtain rfl : m = n := Option.some.inj (ho.symm.trans hn)
    exact hlast ▸ h

theorem phaseStep_keeps_roundsLegal (hc : s.ControlLegal) (hw : s.WorkLegal) (hst : phaseStep s = .next t) :
    t.roundsLegal := by
  rcases phaseStep_cases hst with ⟨_, rfl⟩ | ⟨i, _, _, rfl⟩ | ⟨_, rfl⟩ | ⟨i, m, hp, hr, ho, rfl⟩ | ⟨_, rfl⟩
  · exact roundsLegal_of_phase nofun nofun
  · exact stepKsRot_roundsLegal s i
  · exact fun m _ => ⟨fun _ => ⟨rfl, nofun⟩, nofun⟩
  · have hsk : s.subkeysCurrent := hw.subkeys (skv_of_block hc.skv (.inr hp))
    have hdone : s.roundsDone m (s.rnd.toNat - 1) := hw.rounding m hp ho
    rw [hr, Nat.add_sub_cancel] at hdone
    exact stepRound_roundsLegal ho (runRound_roundsDone hsk hdone)
  · exact roundsLegal_of_phase nofun nofun

theorem hostEffect_keeps_workLegal (hc : s.ControlLegal) (hw : s.WorkLegal) (hst : HostEffect s t) : t.WorkLegal := by
  obtain ⟨hschedule, hrounds⟩ := (workLegal_iff hc).mp hw
  exact (workLegal_iff (hostEffect_keeps_controlLegal hc hst)).mpr
    ⟨hostEffect_keeps_scheduleLegal hschedule hst, hostEffect_keeps_roundsLegal hc hrounds hst⟩

theorem phaseStep_keeps_workLegal (hc : s.ControlLegal) (hw : s.WorkLegal) (hst : phaseStep s = .next t) :
    t.WorkLegal := by
  obtain ⟨hschedule, _⟩ := (workLegal_iff hc).mp hw
  exact (workLegal_iff (phaseStep_keeps_controlLegal hc hst)).mpr
    ⟨phaseStep_keeps_scheduleLegal hschedule hst, phaseStep_keeps_roundsLegal hc hw hst⟩

/-- The work of a legal machine and its control state are kept together. -/
theorem step_keeps_workLegal (hc : s.ControlLegal) (hw : s.WorkLegal) (hst : step s = .next t) : t.WorkLegal := by
  have hboth : t.ControlLegal ∧ t.WorkLegal :=
    step_keeps (P := fun s => s.ControlLegal ∧ s.WorkLegal)
      (fun ⟨hc, hw⟩ h => ⟨hostEffect_keeps_controlLegal hc h, hostEffect_keeps_workLegal hc hw h⟩)
      (fun ⟨hc, hw⟩ _ h => ⟨phaseStep_keeps_controlLegal hc h, phaseStep_keeps_workLegal hc hw h⟩) ⟨hc, hw⟩ hst
  exact hboth.2

end Sys2Proof.Machine
end

section
/-! CERTIFICATE. The invariant of the work in progress (43_block_cipher.md sections 1 to 3, 41_key_schedule.md section
1), and that all the invariants hold at reset. -/

open Sys2Proof Sys2Proof.Machine

/-- Settles O53: the schedule is kept as in O54, a round takes the halves of `i` rounds to those of `i + 1`, and KEY and
DIN are written in IDLE only. -/
theorem stepKeepsWorkLegal : Obligations.StepKeepsWorkLegal := fun _ _ => step_keeps_workLegal

/-- Settles O51: at reset the phase is IDLE, TBUF has no cell, and TRV, TR and SKV are zero. -/
theorem resetMeetsTheInvariants : Obligations.ResetMeetsTheInvariants := fun e =>
  have hc := controlLegal_toReset { State.reset with env := e }
  ⟨hc, reset_tbuf_wf, traceLegal_toReset { State.reset with env := e },
    (workLegal_iff hc).mpr ⟨toReset_scheduleLegal _, roundsLegal_of_phase nofun nofun⟩⟩

/-- Settles O55: in FPERM all sixteen rounds are done, and the output is FP of their last halves. -/
theorem finishingStepWritesTheBlockResult : Obligations.FinishingStepWritesTheBlockResult := by
  intro s m hw hp ho
  obtain ⟨hhalves, hrecords⟩ := hw.finishing m hp ho
  refine ⟨s.stepFperm, phaseStep_fperm hp, ?output, Vector.ext fun j hj => hrecords ⟨j, hj⟩ hj, rfl, rfl⟩
  case output => rw [cipherBlock_output, ← hhalves]; rfl

end

section
/-! SUPPORT. Which agent moves (20_memory.md R70), as equations of `step`, and the host side that the host's move leaves
(log entries 1, 3). -/

namespace Sys2Proof.Machine

variable {s t : State} {a : HostAction} {rest : List HostAction}

theorem step_of_sequencerMoves (h : s.sequencerMoves = true) : step s = phaseStep s.sequencerTook := by
  rw [step, oneAction, if_pos h]

theorem step_of_hostMoves (h : s.sequencerMoves = false) (he : s.env.script = a :: rest) :
    step s = hostAct a (s.hostTook rest) := by
  simp [step, oneAction, h, he]

/-- The sequencer does not move while BUSY = 0 (10_state.md R31), nor before the host has used up its limit. -/
theorem not_sequencerMoves (he : s.env.script = a :: rest) (h : s.busy = false ∨ s.hostBudget ≠ 0) :
    s.sequencerMoves = false := by
  rcases h with h | h <;> simp [State.sequencerMoves, he, h]

/-- The host's move takes its action off the script and adds nothing to what it has read. -/
theorem hostTook_hostSide (rest : List HostAction) (s : State) :
    ∃ e : HostSide, s.hostTook rest = { s with env := e } ∧ e.script = rest ∧ e.reads = s.env.reads := by
  unfold State.hostTook
  split
  · exact ⟨_, rfl, rfl, rfl⟩
  · exact ⟨_, rfl, rfl, rfl⟩

/-- A reset action gives CORE its reset values, whatever its state (70_reset_and_hazards.md R290). -/
theorem hostAct_of_resets (ha : a.resets) (s : State) : hostAct a s = .next s.toReset := by
  cases a with
  | write i v =>
    obtain ⟨rfl, rfl⟩ := ha
    exact hostWrite_srst s
  | reset => rfl
  | read | wait => exact absurd ha id

end Sys2Proof.Machine
end

section
/-! CERTIFICATE. The host's commands as steps (20_memory.md sections 3 and 4, 30_encoding.md section 4), and the way out
of a fault (60_exceptions.md section 4). -/

open Sys2Proof Sys2Proof.Machine

/-- Settles O5: the host moves, its action is taken off the script, and a write of `i` to CMD is exec of `i`. -/
theorem stepRunsTheDecodedCommand : Obligations.StepRunsTheDecodedCommand := by
  intro s v rest i hscript hdecode hmoves
  obtain ⟨e, htook, hrest, hreads⟩ := hostTook_hostSide rest s
  refine ⟨e, ?_, hrest, hreads⟩
  rw [step_of_hostMoves (not_sequencerMoves hscript hmoves) hscript, htook]
  exact hostWrite_cmd_of_ok hdecode _

/-- Settles O6: a placed write is first in the script and the host has a move left, so O5 applies. -/
theorem placedCommandRunsNext : Obligations.PlacedCommandRunsNext := by
  intro s nbits w i hword
  have hdecode : decode (commandWord nbits w) = .ok i := by
    unfold decodeTableWord at hword
    split at hword
    · next hd => rw [hd, Option.some.inj hword]
    · cases hword
  exact stepRunsTheDecodedCommand (s.withFetchWord nbits w) _ _ i rfl hdecode (.inr (Nat.succ_ne_zero _))

/-- Settles O7: the state after reset is what a reset makes of any state. -/
theorem resetStateHasTheResetValues : Obligations.ResetStateHasTheResetValues := toReset_hasResetValues State.reset

/-- Settles O34: KEYSCHED is gated, and in a ready state with KEYW = 1 accepted. -/
theorem keyschedIsAccepted : Obligations.KeyschedIsAccepted := by
  refine fun s hs hk => ⟨?accepted, hostWrite_cmd_of_ok rfl s⟩
  case accepted => rw [exec_keysched_ready hs, if_pos hk]; rfl

/-- Settles O44: ENC and DEC are gated, and in a ready state with KEYW = DINW = 1 accepted. -/
theorem blockCommandsAreAccepted : Obligations.BlockCommandsAreAccepted := by
  refine fun s hs hk hd => ⟨?enc, ?dec, hostWrite_cmd_of_ok rfl s, hostWrite_cmd_of_ok rfl s⟩
  case enc => rw [exec_enc_ready hs, acceptBlock_accepts .enc hk hd]; rfl
  case dec => rw [exec_dec_ready hs, acceptBlock_accepts .dec hk hd]; rfl

/-- Settles O19: the next action is a reset, which gives the reset values, or the step leaves CORE as it is. -/
theorem onlyResetLeavesTheFault : Obligations.OnlyResetLeavesTheFault := by
  intro s t hlegal hfault hst
  have hbusy : s.busy = false := hlegal.flags.fault_busy hfault
  by_cases hnext : ∃ a, s.env.script.head? = some a ∧ a.resets
  · obtain ⟨a, hhead, ha⟩ := hnext
    obtain ⟨rest, hscript⟩ := List.head?_eq_some_iff.mp hhead
    rw [step_of_not_busy hbusy hscript, hostAct_of_resets ha] at hst
    cases hst
    exact .inr ⟨toReset_hasResetValues _, a, hhead, ha⟩
  · obtain ⟨e, hsame⟩ := step_faulted hfault hbusy fun a hhead ha => hnext ⟨a, hhead, ha⟩
    rw [hsame] at hst
    cases hst
    exact .inl ⟨e, rfl⟩

end

section
/-! SUPPORT. The sequencer's steps of a legal machine (43_block_cipher.md R231, R232): there is one while BUSY = 1, and
each leaves one step fewer. -/

namespace Sys2Proof.Machine

variable {s t : State}

/-- A legal round number names a slot. -/
theorem exists_slot {n : BitVec 5} (h : 1 ≤ n.toNat ∧ n.toNat ≤ 16) : ∃ i : Fin 16, n.toNat = i.val + 1 :=
  ⟨⟨n.toNat - 1, by omega⟩, by simp; omega⟩

/-- No state with BUSY = 1 is without a step (70_reset_and_hazards.md R303). -/
theorem phaseStep_answers (h : s.seqLegal) (hb : s.busy = true) : ∃ t, phaseStep s = .next t := by
  cases hp : s.phase with
  | idle => exact absurd (((idle_iff_not_busy h).mp hp).symm.trans hb) (by decide)
  | ksPc1 => exact ⟨_, phaseStep_ksPc1 hp⟩
  | ksRot =>
    obtain ⟨_, hrange, _⟩ := (seqLegal_ksRot hp).mp h
    obtain ⟨i, hr⟩ := exists_slot hrange
    exact ⟨_, phaseStep_ksRot hp hr⟩
  | iperm => exact ⟨_, phaseStep_iperm hp⟩
  | round =>
    obtain ⟨_, hrange, hop⟩ := (seqLegal_round hp).mp h
    obtain ⟨i, hr⟩ := exists_slot hrange
    obtain ⟨m, hm⟩ := blockMode_of_isBlock hop
    exact ⟨_, phaseStep_round hp hr hm⟩
  | fperm => exact ⟨_, phaseStep_fperm hp⟩

/-- A sequencer step goes on with BUSY = 1 or ends its command with DONE = 1. -/
theorem phaseStep_busy_or_done (hst : phaseStep s = .next t) (hb : s.busy = true) : t.busy = true ∨ t.done = true := by
  rcases phaseStep_cases hst with ⟨_, rfl⟩ | ⟨i, _, _, rfl⟩ | ⟨_, rfl⟩ | ⟨i, m, _, _, _, rfl⟩ | ⟨_, rfl⟩
  · exact .inl hb
  · by_cases hi : i.val < 15
    · rw [stepKsRot_between s i hi]
      exact .inl hb
    · by_cases ho : s.op = .keysched
      · rw [stepKsRot_ends s i hi ho]
        exact .inr rfl
      · rw [stepKsRot_goes_on s i hi ho]
        exact .inl hb
  · exact .inl hb
  · rw [stepRound_eq]
    exact .inl hb
  · exact .inr rfl

/-! ### The steps left -/

theorem stepsLeft_idle (hp : s.phase = .idle) : s.stepsLeft = 0 := by rw [State.stepsLeft, hp]

theorem stepsLeft_ksPc1 (hp : s.phase = .ksPc1) : s.stepsLeft = if s.op = .keysched then 17 else 35 := by
  rw [State.stepsLeft, hp]

theorem stepsLeft_ksRot (hp : s.phase = .ksRot) :
    s.stepsLeft = (17 - s.rnd.toNat) + (if s.op = .keysched then 0 else 18) := by rw [State.stepsLeft, hp]

theorem stepsLeft_iperm (hp : s.phase = .iperm) : s.stepsLeft = 18 := by rw [State.stepsLeft, hp]

theorem stepsLeft_round (hp : s.phase = .round) : s.stepsLeft = (17 - s.rnd.toNat) + 1 := by rw [State.stepsLeft, hp]

theorem stepsLeft_fperm (hp : s.phase = .fperm) : s.stepsLeft = 1 := by rw [State.stepsLeft, hp]

theorem stepsLeft_stepKsRot {i : Fin 16} (hp : s.phase = .ksRot) (hr : s.rnd.toNat = i.val + 1) :
    (s.stepKsRot i).stepsLeft + 1 = s.stepsLeft := by
  rw [stepsLeft_ksRot hp, hr]
  by_cases hi : i.val < 15
  · have hnext : (BitVec.ofNat 5 (i.val + 2)).toNat = i.val + 2 := Nat.mod_eq_of_lt (by omega)
    rw [stepKsRot_between s i hi, stepsLeft_ksRot rfl, State.setSeq_rnd, State.setSeq_op, State.rotateAndSelect_op,
      hnext]
    omega
  · by_cases ho : s.op = .keysched
    · rw [stepKsRot_ends s i hi ho, stepsLeft_idle rfl, if_pos ho]
      omega
    · rw [stepKsRot_goes_on s i hi ho, stepsLeft_iperm rfl, if_neg ho]
      omega

theorem stepsLeft_stepRound {i : Fin 16} (m : Mode) (hp : s.phase = .round) (hr : s.rnd.toNat = i.val + 1) :
    (s.stepRound m i).stepsLeft + 1 = s.stepsLeft := by
  rw [stepsLeft_round hp, hr]
  by_cases hi : i.val < 15
  · have hnext : (BitVec.ofNat 5 (i.val + 2)).toNat = i.val + 2 := Nat.mod_eq_of_lt (by omega)
    rw [stepRound_between m s i hi, stepsLeft_round rfl, State.setSeq_rnd, hnext]
    omega
  · rw [stepRound_ends m s i hi, stepsLeft_fperm rfl]
    omega

/-- Each sequencer step leaves one step fewer (43_block_cipher.md section 4). -/
theorem phaseStep_stepsLeft (hst : phaseStep s = .next t) : t.stepsLeft + 1 = s.stepsLeft := by
  rcases phaseStep_cases hst with ⟨hp, rfl⟩ | ⟨i, hp, hr, rfl⟩ | ⟨hp, rfl⟩ | ⟨i, m, hp, hr, _, rfl⟩ | ⟨hp, rfl⟩
  · rw [stepsLeft_ksPc1 hp, stepsLeft_ksRot rfl, State.stepKsPc1_op, State.stepKsPc1_rnd]
    split <;> rfl
  · exact stepsLeft_stepKsRot hp hr
  · rw [stepsLeft_iperm hp, stepsLeft_round rfl]
    rfl
  · exact stepsLeft_stepRound m hp hr
  · rw [stepsLeft_fperm hp, stepsLeft_idle rfl]

/-- No step is left exactly when no command is in progress. -/
theorem stepsLeft_eq_zero_iff (h : s.seqLegal) : s.stepsLeft = 0 ↔ s.busy = false := by
  refine ⟨fun hzero => ?_, fun hb => stepsLeft_idle ((idle_iff_not_busy h).mpr hb)⟩
  by_contra hb
  obtain ⟨t, hst⟩ := phaseStep_answers h (by simpa using hb)
  have hfewer := phaseStep_stepsLeft hst
  omega

/-- An accepted block command has 18 steps to take, 35 when the schedule has to be derived. -/
theorem stepsLeft_acceptedBlock {o : Op} {m : Mode} (ho : o ≠ .keysched) :
    (s.acceptedBlock o m).stepsLeft = if s.skv then 18 else 35 := by
  have hphase : (s.acceptedBlock o m).phase = if s.skv then .iperm else .ksPc1 := rfl
  cases hskv : s.skv with
  | true => exact stepsLeft_iperm (by rw [hphase, hskv]; rfl)
  | false => exact (stepsLeft_ksPc1 (by rw [hphase, hskv]; rfl)).trans (if_neg ho)

/-- The run of the steps left, when the host does nothing more (70_reset_and_hazards.md section 4). -/
theorem run_stepsLeft {n : Nat} (hn : s.stepsLeft = n) (hc : s.ControlLegal) (hb : s.busy = true)
    (he : s.env.script = []) : ∃ t, core.run n s = .next t ∧ t.ControlLegal ∧ t.busy = false ∧ t.done = true := by
  induction n generalizing s with
  | zero => exact absurd (((stepsLeft_eq_zero_iff hc.seq).mp hn).symm.trans hb) (by decide)
  | succ n ih =>
    have hc' : s.sequencerTook.ControlLegal := hostEffect_keeps_controlLegal hc (.hostSide s.sequencerTook.env)
    obtain ⟨u, hmoved⟩ := phaseStep_answers hc'.seq hb
    have hstep : step s = .next u := (step_of_busy s hb he).trans hmoved
    have hlegal : u.ControlLegal := step_keeps_controlLegal hc hstep
    obtain ⟨henv, _⟩ := phaseStep_frame hmoved
    have hfewer : u.stepsLeft + 1 = s.stepsLeft := phaseStep_stepsLeft (s := s.sequencerTook) hmoved
    have hleft : u.stepsLeft = n := by omega
    rw [run_next n s u hstep]
    cases hbusy : u.busy with
    | true => exact ih hleft hlegal hbusy (by rw [henv]; exact he)
    | false =>
      have hdone : u.done = true := (phaseStep_busy_or_done hmoved hb).resolve_left (by simp [hbusy])
      have hnone : n = 0 := hleft ▸ (stepsLeft_eq_zero_iff hlegal.seq).mpr hbusy
      subst hnone
      exact ⟨u, rfl, hlegal, hbusy, hdone⟩

end Sys2Proof.Machine
end

section
/-! SUPPORT. The two agents against each other (20_memory.md section 4): the sequencer and the host side, and who writes
KEY, DIN and DOUT. -/

namespace Sys2Proof.Machine

variable {s t : State}

theorem stepKsRot_withEnv (s : State) (e : HostSide) (i : Fin 16) :
    ({ s with env := e } : State).stepKsRot i = { s.stepKsRot i with env := e } := by
  unfold State.stepKsRot
  split
  · rfl
  · split <;> rfl

/-- The sequencer does not look at the host side. -/
theorem phaseStep_withEnv (hst : phaseStep s = .next t) (e : HostSide) :
    phaseStep { s with env := e } = .next { t with env := e } := by
  rcases phaseStep_cases hst with ⟨hp, rfl⟩ | ⟨i, hp, hr, rfl⟩ | ⟨hp, rfl⟩ | ⟨i, m, hp, hr, ho, rfl⟩ | ⟨hp, rfl⟩
  · exact phaseStep_ksPc1 (s := { s with env := e }) hp
  · rw [← stepKsRot_withEnv]
    exact phaseStep_ksRot (s := { s with env := e }) hp hr
  · exact phaseStep_iperm (s := { s with env := e }) hp
  · rw [phaseStep_round (s := { s with env := e }) hp hr ho, stepRound_eq, stepRound_eq]
    rfl
  · exact phaseStep_fperm (s := { s with env := e }) hp

/-- The sequencer writes DOUT in FPERM only (43_block_cipher.md R230). -/
theorem phaseStep_dout (hst : phaseStep s = .next t) (hp : s.phase ≠ .fperm) : t.dout = s.dout := by
  rcases phaseStep_cases hst with ⟨_, rfl⟩ | ⟨i, _, _, rfl⟩ | ⟨_, rfl⟩ | ⟨i, m, _, _, _, rfl⟩ | ⟨hfperm, _⟩
  · rfl
  · unfold State.stepKsRot
    split
    · rfl
    · split <;> rfl
  · rfl
  · rw [stepRound_eq]
    rfl
  · exact absurd hfperm hp

/-- The host writes KEY and DIN while BUSY = 0 only, or it resets CORE. -/
theorem hostEffect_inputs (hst : HostEffect s t) :
    (t.key = s.key ∧ t.din = s.din) ∨ s.busy = false ∨ t.HasResetValues := by
  cases hst with
  | same | hostSide | raise | text | tbufWord | keysched | block => exact .inl ⟨rfl, rfl⟩
  | reset => exact .inr (.inr (toReset_hasResetValues s))
  | key _ hb | din _ hb => exact .inr (.inl hb)

/-- The host writes DOUT by a reset only. -/
theorem hostEffect_dout (hst : HostEffect s t) : t.dout = s.dout ∨ t.HasResetValues := by
  cases hst with
  | same | hostSide | raise | text | tbufWord | key | din | keysched | block => exact .inl rfl
  | reset => exact .inr (toReset_hasResetValues s)

end Sys2Proof.Machine
end

section
/-! CERTIFICATE. The statements about the whole machine (43_block_cipher.md section 4, 70_reset_and_hazards.md,
20_memory.md section 4, 10_state.md section 2). -/

open Sys2Proof Sys2Proof.Machine

/-- Settles O56: the sequencer has a step while BUSY = 1, every host action answers, and waiting changes nothing. -/
theorem legalMachineNeverStops : Obligations.LegalMachineNeverStops := by
  intro s hlegal
  cases hmoves : s.sequencerMoves with
  | true =>
    obtain ⟨hbusy, _⟩ := Bool.and_eq_true_iff.mp hmoves
    have hseq := (hostEffect_keeps_controlLegal hlegal (.hostSide s.sequencerTook.env)).seq
    rw [step_of_sequencerMoves hmoves]
    exact phaseStep_answers (s := s.sequencerTook) hseq hbusy
  | false =>
    cases hscript : s.env.script with
    | nil => exact ⟨s, step_of_waiting (by simpa [State.sequencerMoves, hscript] using hmoves) hscript⟩
    | cons a rest =>
      obtain ⟨t, hact, _⟩ := hostAct_effect a (s.hostTook rest)
      exact ⟨t, (step_of_hostMoves hmoves hscript).trans hact⟩

/-- Settles O57: the phase and RND at acceptance give the counts, and each phase's step goes one on. -/
theorem stepCounts : Obligations.StepCounts := by
  refine ⟨fun s a hs hk ha => ?keysched, fun s a i hi hs hk hd ha => ?block, fun s t _ => phaseStep_stepsLeft,
    fun s hc => stepsLeft_eq_zero_iff hc.seq⟩
  case keysched =>
    rw [exec_keysched_ready hs, if_pos hk] at ha
    cases ha
    exact stepsLeft_ksPc1 rfl
  case block =>
    rcases hi with rfl | rfl
    · rw [exec_enc_ready hs, acceptBlock_accepts .enc hk hd] at ha
      cases ha
      exact stepsLeft_acceptedBlock nofun
    · rw [exec_dec_ready hs, acceptBlock_accepts .dec hk hd] at ha
      cases ha
      exact stepsLeft_acceptedBlock nofun

/-- Settles O58: by induction on the steps left; the last of them sets DONE, and the control state stays legal. -/
theorem commandsEnd : Obligations.CommandsEnd := by
  intro s hc hb he
  obtain ⟨t, hrun, hlegal, hbusy, hdone⟩ := run_stepsLeft rfl hc hb he
  have hfault : t.fault = false := by
    by_contra hf
    exact absurd ((hlegal.flags.fault_done (by simpa using hf)).symm.trans hdone) (by decide)
  exact ⟨t, hrun, hbusy, hdone, hfault, (idle_iff_not_busy hlegal.seq).mpr hbusy⟩

/-- Settles O59: each phase's step leaves the host side alone and does not look at it; a read and a poll change nothing
else. -/
theorem readsAndStepsCommute : Obligations.ReadsAndStepsCommute := by
  refine ⟨fun s t e hst => ⟨(phaseStep_frame hst).1, phaseStep_withEnv hst e⟩, fun s t a ha hst => ?host⟩
  case host =>
    rcases ha with ⟨i, rfl⟩ | rfl
    · cases hst
      exact ⟨_, rfl⟩
    · cases hst
      exact pollStatus_eq s

/-- Settles O60: the sequencer leaves KEY and DIN alone and writes DOUT in FPERM; of the host's effects only writes in a
ready state touch KEY or DIN, and only a reset DOUT. -/
theorem whoWritesTheDataRegisters : Obligations.WhoWritesTheDataRegisters := by
  intro s t _ hst
  rcases step_cases hst with ⟨hbusy, hmoved⟩ | ⟨e, heff⟩ | ⟨_, _, rfl⟩
  · obtain ⟨_, _, hkey, hdin, _⟩ := phaseStep_frame hmoved
    refine ⟨fun hchanged => ?_, fun hchanged => .inl ⟨hbusy, ?_⟩⟩
    · simp [hkey, hdin] at hchanged
    · by_contra hp
      exact hchanged (phaseStep_dout (s := s.sequencerTook) hmoved hp)
  · refine ⟨fun hchanged => (hostEffect_inputs heff).resolve_left ?_, fun hchanged =>
      .inr ((hostEffect_dout heff).resolve_left hchanged)⟩
    rintro ⟨hkey, hdin⟩
    exact hchanged.elim (· hkey) (· hdin)
  · simp

end

section
/-! SUPPORT. The rounds of EncryptBlock and DecryptBlock (43_block_cipher.md R218 to R223): the halves between two
rounds, and that the rounds of the other direction take them back. -/

namespace Sys2Proof.Machine

variable {m : Mode} {b k : Word64}

/-! ### The halves between the rounds -/

/-- The halves after `n` rounds of the Block `b` under the key `k` (R218). -/
def cipherHalves (m : Mode) (b k : Word64) (n : Nat) : HalfBlock × HalfBlock :=
  halvesAfterRounds m (keySchedule k) (leftHalf (initialPermutation b)) (rightHalf (initialPermutation b)) n

/-- The body of R220 and R221 in terms of the halves: its output, and its record of slot `i`. -/
theorem cipherBlock_eq (m : Mode) (b k : Word64) : cipherBlock m b k =
    { output := finalPermutation (preOutput (cipherHalves m b k 16).1 (cipherHalves m b k 16).2)
      trace := Vector.ofFn fun i => roundTrace (cipherHalves m b k i.val).1 (cipherHalves m b k i.val).2
        (keySchedule k)[subkeySlot m i] (roundIndex i) } := rfl

/-- Record `i + 1` is that of the round on the halves after `i` rounds. -/
theorem getElem_trace (m : Mode) (b k : Word64) (i : Nat) (hi : i < 16) :
    (cipherBlock m b k).trace[i] = roundTrace (cipherHalves m b k i).1 (cipherHalves m b k i).2
      (keySchedule k)[subkeySlot m ⟨i, hi⟩] (roundIndex ⟨i, hi⟩) := by
  simp only [cipherBlock_eq, Vector.getElem_ofFn]

/-- Record `i + 1` begins with the halves after `i` rounds. -/
theorem trace_before (m : Mode) (b k : Word64) (i : Nat) (hi : i < 16) :
    ((cipherBlock m b k).trace[i].lBefore, (cipherBlock m b k).trace[i].rBefore) = cipherHalves m b k i := by
  rw [getElem_trace]
  rfl

/-- Record `i + 1` ends with the halves after `i + 1` rounds. -/
theorem trace_after (m : Mode) (b k : Word64) (i : Nat) (hi : i < 16) :
    ((cipherBlock m b k).trace[i].lAfter, (cipherBlock m b k).trace[i].rAfter) = cipherHalves m b k (i + 1) := by
  rw [getElem_trace]
  exact (halvesAfterRounds_succ m _ _ _ ⟨i, hi⟩).symm

/-- The new left half of a round is its old right half (R189). -/
theorem trace_lAfter (m : Mode) (b k : Word64) (i : Nat) (hi : i < 16) :
    (cipherBlock m b k).trace[i].lAfter = (cipherBlock m b k).trace[i].rBefore := by
  rw [getElem_trace]
  rfl

/-- The two halves of a value, joined again. -/
theorem leftHalf_append_rightHalf (x : Word64) : leftHalf x ++ rightHalf x = x := by
  unfold leftHalf rightHalf
  rw [BitVec.extractLsb'_append_extractLsb'_eq_extractLsb' (by rfl)]
  exact BitVec.extractLsb'_eq_self

/-! ### The other direction -/

/-- The other direction. -/
def Mode.opposite : Mode → Mode
  | .enc => .dec
  | .dec => .enc

/-- The other direction reads the subkeys in the reverse order (R216, R217). -/
theorem subkeySlot_opposite (m : Mode) (i : Fin 16) : subkeySlot m.opposite i = subkeySlot m i.rev := by
  cases m with
  | enc => rfl
  | dec => exact i.rev_rev.symm

theorem getElem_subkeySlot_opposite (ks : Vector Subkey 16) (m : Mode) (i : Fin 16) :
    ks[subkeySlot m.opposite i] = ks[subkeySlot m i.rev] := by simp only [subkeySlot_opposite]

/-- A round on the swapped halves after a round, with the same subkey, gives the swapped halves before it: F cancels. -/
theorem newRight_newRight (l r : HalfBlock) (s : Subkey) : newRight (newRight l r s) (newLeft r) s = l := by
  simp [newRight, newLeft]

/-- `n` rounds of the other direction, from the swapped halves after all sixteen, give the swapped halves `n` rounds
earlier. -/
theorem halvesAfterRounds_opposite (ks : Vector Subkey 16) (l r : HalfBlock) {n : Nat} (hn : n ≤ 16) :
    halvesAfterRounds m.opposite ks (halvesAfterRounds m ks l r 16).2 (halvesAfterRounds m ks l r 16).1 n =
      (halvesAfterRounds m ks l r (16 - n)).swap := by
  induction n with
  | zero => rfl
  | succ n ih =>
    let i : Fin 16 := ⟨n, hn⟩
    have hlast : 16 - n = i.rev.val + 1 := by simp [i]; omega
    have hbefore : 16 - (n + 1) = i.rev.val := by simp [i]
    have hround := halvesAfterRounds_succ m.opposite ks (halvesAfterRounds m ks l r 16).2
      (halvesAfterRounds m ks l r 16).1 i
    rw [ih (by omega), hlast, halvesAfterRounds_succ m ks l r i.rev,
      getElem_subkeySlot_opposite] at hround
    rw [hbefore, hround]
    exact Prod.ext rfl (newRight_newRight _ _ _)

/-- The cipher of the other direction, with the same key, gives the Block back: IP undoes FP, and the rounds undo each
other. -/
theorem cipherBlock_opposite (m : Mode) (b k : Word64) :
    (cipherBlock m.opposite (cipherBlock m b k).output k).output = b := by
  have hip : initialPermutation (cipherBlock m b k).output =
      preOutput (cipherHalves m b k 16).1 (cipherHalves m b k 16).2 := permute_permute_of_inverse fpTable_ipTable _
  have hback : cipherHalves m.opposite (cipherBlock m b k).output k 16 = (cipherHalves m b k 0).swap := by
    rw [cipherHalves, hip, leftHalf, rightHalf, preOutput, extract_append_high, extract_append_low]
    exact halvesAfterRounds_opposite _ _ _ (Nat.le_refl 16)
  calc (cipherBlock m.opposite (cipherBlock m b k).output k).output
      = finalPermutation (leftHalf (initialPermutation b) ++ rightHalf (initialPermutation b)) := by
        rw [cipherBlock_eq, hback]; rfl
    _ = b := by rw [leftHalf_append_rightHalf]; exact permute_permute_of_inverse ipTable_fpTable b

end Sys2Proof.Machine
end

section
/-! CERTIFICATE. The correctness contract of the cipher and the chain of its records (43_block_cipher.md section 1). -/

open Sys2Proof Sys2Proof.Machine

/-- Settles O47: the two directions are each other's opposite. -/
theorem decryptUndoesEncrypt : Obligations.DecryptUndoesEncrypt :=
  fun p k => ⟨cipherBlock_opposite .enc p k, cipherBlock_opposite .dec p k⟩

/-- Settles O48: each record starts from the halves after the rounds before it and ends with those after its own. -/
theorem traceRecordsChain : Obligations.TraceRecordsChain := by
  intro m b k
  refine ⟨fun i j hij => ?chain, ?first, ?output, fun i => ?record⟩
  case chain =>
    have hchain := (trace_before m b k (i.val + 1) (by omega)).trans (trace_after m b k i.val i.isLt).symm
    obtain ⟨hleft, hright⟩ := Prod.mk.inj hchain
    simp only [Fin.getElem_fin, ← hij]
    rw [hleft, hright, trace_lAfter]
    exact ⟨rfl, rfl, rfl⟩
  case first =>
    obtain ⟨hleft, hright⟩ := Prod.mk.inj (trace_before m b k 0 (by decide))
    rw [hleft, hright]
    exact leftHalf_append_rightHalf _
  case output =>
    obtain ⟨hleft, hright⟩ := Prod.mk.inj (trace_after m b k 15 (by decide))
    rw [hleft, hright]
    rfl
  case record =>
    simp only [Fin.getElem_fin, getElem_trace]
    refine ⟨rfl, ?_⟩
    cases m with
    | enc => rfl
    | dec => exact getElem_subkeySlot (o := .dec) rfl (keySchedule k) i

end

section
/-! SUPPORT. The converse directions of the conversions (40_conversion.md section 1): a text that has a value is written
back from it, and the bytes of a byte form. -/

namespace Sys2Proof.Machine

/-! ### Bytes -/

/-- BitsToBytes undoes BytesToBits (40_conversion.md R111, R112). -/
theorem bitsToBytes_bytesToBits (b : List Byte) : bitsToBytes b.length (bytesToBits b.length b) = b := by
  apply List.ext_getElem (bitsToBytes_length _ _)
  intro k _ hk
  have hbyte := (getD_bitsToBytes hk (bytesToBits b.length b)).trans (extract_bytesToBits hk b)
  simpa [hk] using hbyte

/-- Bit `j` of byte `k` of a value, both counted from the most significant end. -/
theorem getMsbD_byte {n k j : Nat} (hk : k < n) (hj : j < 8) (v : BitVec (8 * n)) :
    (v.extractLsb' (8 * (n - k - 1)) 8).getMsbD j = v.getMsbD (8 * k + j) := by
  have hlow : 7 - j < 8 := by omega
  have hin : 8 * k + j < 8 * n := by omega
  have hpos : 8 * (n - k - 1) + (7 - j) = 8 * n - 1 - (8 * k + j) := by omega
  simp [BitVec.getMsbD_eq_getLsbD, hj, hlow, hin, hpos]

/-- BytesToBits undoes BitsToBytes (40_conversion.md R111, R112). -/
theorem bytesToBits_bitsToBytes (n : Nat) (v : BitVec (8 * n)) : bytesToBits n (bitsToBytes n v) = v := by
  apply BitVec.eq_of_getMsbD_eq
  intro i hi
  have hk : i / 8 < n := by omega
  have hj : i % 8 < 8 := by omega
  rw [bytesToBits, BitVec.getMsbD_ofFnBE, dif_pos hi, getD_bitsToBytes hk, getMsbD_byte hk hj, Nat.div_add_mod]

/-- A byte is its two digits, the more significant first. -/
theorem extract_byte_digits {w : Nat} (v : BitVec w) (p : Nat) :
    v.extractLsb' p 8 = v.extractLsb' (p + 4) 4 ++ v.extractLsb' p 4 := by
  rw [BitVec.extractLsb'_append_extractLsb'_eq_extractLsb' (by rfl)]

/-! ### Texts -/

/-- A digit is written as the character it was read from, in upper case (40_conversion.md R113, R114). -/
theorem hexChar_of_hexVal : ∀ c : Byte, ∀ d ∈ hexVal c,
    hexChar d = if 0x61 ≤ c.toNat ∧ c.toNat ≤ 0x66 then c - 0x20#8 else c := by decide

theorem binChar_of_binVal : ∀ c : Byte, ∀ b ∈ binVal c, (if b then 0x31#8 else 0x30#8) = c := by decide

theorem binVal_eq_none : ∀ c : Byte, binVal c = none ↔ c ≠ 0x30#8 ∧ c ≠ 0x31#8 := by decide

/-- The values of a text, character by character. -/
theorem textValues_getElem {α : Type} {m : Nat} {f : Byte → Option α} {t : List Byte} {ds : List α}
    (h : textValues m f t = some ds) :
    ∃ (ht : t.length = m) (hd : ds.length = m), ∀ (k : Nat) (hk : k < m), f t[k] = some ds[k] := by
  obtain ⟨ht, hmap⟩ := (textValues_eq_some m f t ds).mp h
  have hd : ds.length = m := by simpa [ht] using (congrArg List.length hmap).symm
  refine ⟨ht, hd, fun k hk => ?_⟩
  have hchar : (t.map f)[k]? = (ds.map some)[k]? := by rw [hmap]
  simpa [ht, hd, hk] using hchar

/-- BinToBits undoes BitsToBin (40_conversion.md R117, R118). -/
theorem binToBits_bitsToBin (m : Nat) (v : BitVec m) : binToBits m (bitsToBin m v) = some v := by
  have hvals : textValues m binVal (bitsToBin m v) = some ((List.range m).map fun k => v.getMsbD k) := by
    refine (textValues_eq_some m binVal _ _).mpr ⟨bitsToBin_length m v, ?_⟩
    simp [bitsToBin, bitAt, binVal_binChar]
  rw [binToBits, hvals, Option.map_some, Option.some.injEq]
  apply BitVec.eq_of_getMsbD_eq
  intro i hi
  simp [BitVec.getMsbD_ofFnBE, hi]

/-- BitsToHex writes a text that has a value back, in upper case (40_conversion.md R115, R116). -/
theorem bitsToHex_of_hexToBits {m : Nat} {t : List Byte} {v : BitVec (4 * m)} (h : hexToBits m t = some v) :
    bitsToHex m v = t.map fun c => if 0x61 ≤ c.toNat ∧ c.toNat ≤ 0x66 then c - 0x20#8 else c := by
  obtain ⟨ds, hvals, rfl⟩ := Option.map_eq_some_iff.mp h
  obtain ⟨ht, hd, hdigit⟩ := textValues_getElem hvals
  apply List.ext_getElem (by simp [ht])
  intro k hk _
  have hkm : k < m := by simpa using hk
  have hchar := hexChar_of_hexVal t[k] ds[k] (hdigit k hkm)
  have hwritten := getD_bitsToHex hkm (digitsToBits m ds)
  rw [extract_digitsToBits hkm] at hwritten
  simpa [hkm, hd, hchar] using hwritten

/-- BitsToBin writes a text that has a value back (40_conversion.md R117, R118). -/
theorem bitsToBin_of_binToBits {m : Nat} {t : List Byte} {v : BitVec m} (h : binToBits m t = some v) :
    bitsToBin m v = t := by
  obtain ⟨bs, hvals, rfl⟩ := Option.map_eq_some_iff.mp h
  obtain ⟨ht, hb, hbit⟩ := textValues_getElem hvals
  apply List.ext_getElem (by simp [ht])
  intro k hk _
  have hkm : k < m := by simpa using hk
  have hchar := binChar_of_binVal t[k] bs[k] (hbit k hkm)
  have hwritten := getD_bitsToBin hkm (BitVec.ofFnBE fun i : Fin m => bs.getD i false)
  simpa [BitVec.getMsbD_ofFnBE, hkm, hb, hchar] using hwritten

/-- HexToBytes undoes BytesToHex (40_conversion.md R115, R116). -/
theorem hexToBytes_bytesToHex (b : List Byte) : hexToBytes b.length (bytesToHex b.length b) = some b := by
  have hwidth : 4 * (2 * b.length) = 8 * b.length := by omega
  rw [hexToBytes, bytesToHex, hexToBits_bitsToHex, Option.map_some, BitVec.setWidth_setWidth_of_le _ hwidth.ge,
    BitVec.setWidth_eq, bitsToBytes_bytesToBits]

/-- Byte `j` of a byte form is the digits `2j` and `2j + 1` of its text (40_conversion.md R115). -/
theorem hexToBytes_digits {n : Nat} {t b : List Byte} (h : hexToBytes n t = some b) : b.length = n ∧ ∀ j, j < n →
    ∃ d e, hexVal (t.getD (2 * j) 0#8) = some d ∧ hexVal (t.getD (2 * j + 1) 0#8) = some e ∧ b.getD j 0#8 = d ++ e := by
  obtain ⟨v, hbits, rfl⟩ := Option.map_eq_some_iff.mp h
  obtain ⟨ds, hvals, rfl⟩ := Option.map_eq_some_iff.mp hbits
  obtain ⟨ht, hd, hdigit⟩ := textValues_getElem hvals
  refine ⟨bitsToBytes_length _ _, fun j hj => ?_⟩
  have hhigh : 2 * j < 2 * n := by omega
  have hlow : 2 * j + 1 < 2 * n := by omega
  refine ⟨ds[2 * j], ds[2 * j + 1], by simpa [ht, hhigh] using hdigit _ hhigh,
    by simpa [ht, hlow] using hdigit _ hlow, ?_⟩
  have hposHigh : 8 * (n - j - 1) + 4 = 4 * (2 * n - 2 * j - 1) := by omega
  have hposLow : 8 * (n - j - 1) = 4 * (2 * n - (2 * j + 1) - 1) := by omega
  rw [getD_bitsToBytes hj, BitVec.extractLsb'_setWidth_of_le (by omega), extract_byte_digits, hposHigh, extract_digitsToBits hhigh, hposLow,
    extract_digitsToBits hlow]
  simp [hd, hhigh, hlow]

end Sys2Proof.Machine
end

section
/-! CERTIFICATE. The round-trip laws of the conversions (40_conversion.md section 1). -/

open Sys2Proof Sys2Proof.Machine

/-- Settles O21: each law is read off byte by byte or digit by digit; a text of odd length is not of length `2n`. -/
theorem conversionRoundTrips : Obligations.ConversionRoundTrips := by
  refine ⟨fun _ b hb => hb ▸ bitsToBytes_bytesToBits b, bytesToBits_bitsToBytes, hexToBits_bitsToHex,
    fun _ b hb => hb ▸ hexToBytes_bytesToHex b, binToBits_bitsToBin, fun _ _ _ => bitsToHex_of_hexToBits,
    fun _ _ _ => bitsToBin_of_binToBits, hexToBits_eq_none, fun m t => ?binNone, hexToBytes_eq_none,
    fun n t hodd => ?oddLength, fun _ _ _ => hexToBytes_digits⟩
  case binNone => simp only [binToBits_eq_none, binVal_eq_none]
  case oddLength => exact (hexToBytes_eq_none n t).mpr (.inl (by omega))

end

section
/-! SUPPORT. The frame of every command (10_state.md section 5, 40_conversion.md section 2): that of each write a command
makes, and then of the commands, which make one behind the gate or fault. -/

namespace Sys2Proof.Machine

variable {i : Instr} {s t : State}

/-- What the command `i` may change on the way from `s` to `t`. -/
def CommandFrame (i : Instr) (s t : State) : Prop :=
  t.env = s.env ∧
  (i ≠ .srst → t.dout = s.dout ∧ t.l = s.l ∧ t.r = s.r ∧ t.c = s.c ∧ t.d = s.d ∧ t.sk = s.sk) ∧
  (i ≠ .srst → i ≠ .ldhex .key → i ≠ .ldbin .key → t.key = s.key ∧ t.keyw = s.keyw) ∧
  (i ≠ .srst → i ≠ .ldhex .din → i ≠ .ldbin .din → t.din = s.din ∧ t.dinw = s.dinw) ∧
  (i ≠ .srst → i ≠ .ldhex .key → i ≠ .ldbin .key → i ≠ .keysched → t.skv = s.skv) ∧
  (i ≠ .srst → i ≠ .enc → i ≠ .dec → t.mode = s.mode ∧ t.trv = s.trv ∧ t.tr = s.tr) ∧
  (i ≠ .srst → ∀ a, (∀ rs, i ≠ .stbin rs) → ((∃ rs, i = .sthex rs) → 16 ≤ a) → memGet t.tbuf a = memGet s.tbuf a)

/-! ### The writes -/

theorem frame_same (i : Instr) (s : State) : CommandFrame i s s := by simp [CommandFrame]

theorem frame_raiseFault (i : Instr) (k : Cause) (s : State) : CommandFrame i s (s.raiseFault k) := by
  simp [CommandFrame]

theorem frame_toReset (s : State) : CommandFrame .srst s s.toReset := by simp [CommandFrame]

theorem frame_acceptKeysched (s : State) : CommandFrame .keysched s s.acceptKeysched := by
  simp [CommandFrame, State.acceptKeysched]

theorem frame_acceptedBlock (hi : i = .enc ∨ i = .dec) (o : Op) (m : Mode) (s : State) :
    CommandFrame i s (s.acceptedBlock o m) := by
  rcases hi with rfl | rfl <;> simp [CommandFrame, State.acceptedBlock]

theorem frame_writeKey (hi : i = .ldhex .key ∨ i = .ldbin .key) (v : Word64) (s : State) :
    CommandFrame i s (s.writeKey v) := by
  rcases hi with rfl | rfl <;> simp [CommandFrame]

theorem frame_writeDin (hi : i = .ldhex .din ∨ i = .ldbin .din) (v : Word64) (s : State) :
    CommandFrame i s (s.writeDin v) := by
  rcases hi with rfl | rfl <;> simp [CommandFrame]

/-- A text of sixteen characters leaves the bytes from `TBUF[16]` on alone. -/
theorem frame_putText_sthex (hwf : s.tbuf.wf) {u : List Byte} (hu : u.length = 16) (rs : DataReg) :
    CommandFrame (.sthex rs) s (s.putText u) := by
  have hbyte (a : Nat) (ha : 16 ≤ a) : memGet (memPut s.tbuf 0 u) a = memGet s.tbuf a := by
    rw [memGet_memPut_zero hwf (by simp [tbufBytes, hu]), if_neg (by omega)]
  simpa [CommandFrame] using hbyte

theorem frame_putText_stbin (rs : DataReg) (u : List Byte) (s : State) : CommandFrame (.stbin rs) s (s.putText u) := by
  simp [CommandFrame]

/-! ### The commands -/

/-- The gate adds nothing but the ignored command and `BUSY_ACCESS`. -/
theorem frame_gateWrite {body : State → State} (h : CommandFrame i s (body s)) :
    CommandFrame i s (s.gateWrite body) := by
  unfold State.gateWrite
  split
  · exact frame_same i s
  · split
    · exact frame_raiseFault i .busyAccess s
    · exact h

theorem frame_acceptBlock (hi : i = .enc ∨ i = .dec) (o : Op) (m : Mode) (s : State) :
    CommandFrame i s (s.acceptBlock o m) := by
  cases hk : s.keyw with
  | false => exact acceptBlock_noKey (m := m) o hk ▸ frame_raiseFault i .noKey s
  | true =>
    cases hd : s.dinw with
    | false => exact acceptBlock_noData (m := m) o hk hd ▸ frame_raiseFault i .noData s
    | true => exact acceptBlock_accepts (m := m) o hk hd ▸ frame_acceptedBlock hi o m s

/-- A load writes its register, or faults: with `ENCODING`, or for DOUT with `ILLEGAL_CMD`. -/
theorem frame_loadText {rd : DataReg} (hi : i = .ldhex rd ∨ i = .ldbin rd) (value : Option Word64) (s : State) :
    CommandFrame i s (s.loadText rd value) := by
  cases rd with
  | dout => exact frame_raiseFault i .illegalCmd s
  | key =>
    cases value with
    | none => exact frame_raiseFault i .encoding s
    | some v => exact frame_writeKey hi v s
  | din =>
    cases value with
    | none => exact frame_raiseFault i .encoding s
    | some v => exact frame_writeDin hi v s

theorem exec_frame (hwf : s.tbuf.wf) (hst : exec i s = .next t) : CommandFrame i s t := by
  cases i with
  | nop => cases hst; exact frame_gateWrite (frame_same _ s)
  | keysched =>
    cases hst
    refine frame_gateWrite ?_
    cases s.keyw with
    | false => exact frame_raiseFault _ .noKey s
    | true => exact frame_acceptKeysched s
  | enc => cases hst; exact frame_gateWrite (frame_acceptBlock (.inl rfl) .enc .enc s)
  | dec => cases hst; exact frame_gateWrite (frame_acceptBlock (.inr rfl) .dec .dec s)
  | ldhex rd => cases hst; exact frame_gateWrite (frame_loadText (.inl rfl) _ s)
  | ldbin rd => cases hst; exact frame_gateWrite (frame_loadText (.inr rfl) _ s)
  | sthex rs => cases hst; exact frame_gateWrite (frame_putText_sthex hwf (bitsToHex_length 16 _) rs)
  | stbin rs => cases hst; exact frame_gateWrite (frame_putText_stbin rs _ s)
  | srst => cases hst; exact frame_toReset s

end Sys2Proof.Machine
end

section
/-! CERTIFICATE. The frame of every command (10_state.md section 5, 40_conversion.md section 2). -/

open Sys2Proof Sys2Proof.Machine

/-- Settles O27: behind the gate a command makes one write with its own frame, or faults; a load of DOUT has no
destination. -/
theorem commandFrames : Obligations.CommandFrames :=
  ⟨fun _ _ _ => exec_frame, fun _ hs => ⟨exec_ldhex_ready hs .dout, exec_ldbin_ready hs .dout⟩⟩

end

section
/-! SUPPORT. STATUS and SEQ (10_state.md R28, R30, 60_exceptions.md R251), field by field. -/

namespace Sys2Proof.Machine

/-- The six flags and the reserved bit 7 of STATUS, and MODE as its code. -/
theorem status_flags (s : State) :
    s.status.getLsbD 0 = s.busy ∧ s.status.getLsbD 1 = s.done ∧ s.status.getLsbD 2 = s.skv ∧
      s.status.getLsbD 3 = s.keyw ∧ s.status.getLsbD 4 = s.dinw ∧ s.status.getLsbD 5 = s.fault ∧
      s.status.getLsbD 6 = (modeBit s.mode).getLsbD 0 ∧ s.status.getLsbD 7 = false := by
  unfold State.status
  refine ⟨?_, ?_, ?_, ?_, ?_, ?_, ?_, ?_⟩
  -- Go down the concatenation; the bit asked for is then one of the parts'.
  all_goals repeat rw [BitVec.getLsbD_append]
  all_goals simp

/-- CAUSE and the reserved bits above it. -/
theorem status_cause (s : State) :
    s.status.extractLsb' 12 4 = 0#4 ∧ s.status.extractLsb' 8 4 = causeCode s.cause := by
  unfold State.status
  constructor
  -- Drop the fields below the one asked for.
  all_goals repeat rw [BitVec.extractLsb'_append_eq_of_le (by decide)]
  · exact BitVec.extractLsb'_eq_self
  · exact extract_append_low _ _

/-- The fields of SEQ and the reserved bits above them. -/
theorem seq_fields (s : State) :
    s.seq.extractLsb' 10 6 = 0#6 ∧ s.seq.extractLsb' 3 5 = s.rnd ∧ s.seq.extractLsb' 0 3 = phaseCode s.phase ∧
      s.seq.extractLsb' 8 2 = opCode s.op := by
  unfold State.seq
  refine ⟨?_, ?_, extract_append_low _ _, ?_⟩
  all_goals repeat rw [BitVec.extractLsb'_append_eq_of_le (by decide)]
  · exact BitVec.extractLsb'_eq_self
  · exact extract_append_low _ _
  · exact extract_append_low _ _

end Sys2Proof.Machine
end

section
/-! CERTIFICATE. The words STATUS and SEQ (10_state.md sections 4 and 5, 60_exceptions.md sections 1 and 2). -/

open Sys2Proof Sys2Proof.Machine

/-- Settles O13: each field stands at its place, and its code is that of the spec's table. -/
theorem statusAndSeqLayout : Obligations.StatusAndSeqLayout := by
  intro s
  obtain ⟨hbusy, hdone, hskv, hkeyw, hdinw, hfault, hmode, hreserved⟩ := status_flags s
  obtain ⟨hhigh, hcause⟩ := status_cause s
  obtain ⟨hseqHigh, hrnd, hphase, hop⟩ := seq_fields s
  refine ⟨⟨hbusy, hdone, hskv, hkeyw, hdinw, hfault, ?mode, hreserved, hhigh, ?cause⟩,
    ⟨hseqHigh, hrnd, ?phase, ?op⟩, hbusy.symm, hdone.symm, hfault.symm⟩
  case mode => rw [hmode]; cases s.mode <;> decide
  case cause => rw [hcause]; cases s.cause <;> rfl
  case phase => rw [hphase]; cases s.phase <;> rfl
  case op => rw [hop]; cases s.op <;> rfl

end
